-- ==== Sys2Proof/Word.lean ====
section
/-! DEFINITION. The word types of the block: 8-bit symbols (R18), 32-bit registers (10_state.md section 4) and
buffer numbers (R15). -/

namespace Sys2Proof

/-- One symbol of a buffer, or one byte of the AES state (R18, R20). -/
abbrev Byte := BitVec 8

/-- One 32-bit register of the window (10_state.md section 4). -/
abbrev Word := BitVec 32

/-- A buffer number, 0 to 7: S0 to S7 (R15, NBUF = 8 of R5). -/
abbrev BufNum := Fin 8

end Sys2Proof
end

