-- ==== Sys2Proof/Syntax.lean ====
section
/-! DEFINITION. The commands of the block: one constructor of `Instr` for each row of spec/opcode_table.json (R83). -/

namespace Sys2Proof

/-- The encoding tag of a buffer (R16). The numbers 0 to 3 are given by `Enc.code` in Decode.lean. -/
inductive Enc where
  /-- HEX: nibbles, valid symbols 0 to 15. -/
  | hex
  /-- B64: sextets 0 to 63, and the sentinel 255 that stands for `=`. -/
  | b64
  /-- RAW: bytes. -/
  | raw
  /-- TEXT: characters not parsed yet; no Storage value, and no encoding a command word may name (R81). -/
  | text
  deriving DecidableEq, Repr

/-- A decoded command. The fields are those R83 lists as used, in the order D, A, B, E of R88. Numeric operands are no
fields: they stand in ARG0 and ARG1 (R82). -/
inductive Instr where
  /-- NOP (R163). -/
  | nop
  /-- PARSE sD, sA, enc (R92). -/
  | parse (d a : BufNum) (e : Enc)
  /-- RENDER sD, sA (R97). -/
  | render (d a : BufNum)
  /-- CONVERT sD, sA, enc (R93). -/
  | convert (d a : BufNum) (e : Enc)
  /-- SLICE sD, sA, with ARG0 and ARG1 (R98). -/
  | slice (d a : BufNum)
  /-- XOR sD, sA, sB (R108). -/
  | xor (d a b : BufNum)
  /-- HAMM sA, sB (R110). -/
  | hamm (a b : BufNum)
  /-- KEYEXP sA (R126). -/
  | keyexp (a : BufNum)
  /-- DECECB sD, sA, sB (R127). -/
  | dececb (d a b : BufNum)
  /-- STLD sA (R128). -/
  | stld (a : BufNum)
  /-- STST sD (R129). -/
  | stst (d : BufNum)
  /-- ARK, with ARG0 (R130). -/
  | ark
  /-- ISR (R131). -/
  | isr
  /-- ISB (R132). -/
  | isb
  /-- IMC (R133). -/
  | imc
  /-- DECBLK (R134). -/
  | decblk
  /-- RKRD sD, with ARG0 (R135). -/
  | rkrd (d : BufNum)
  /-- TBLRD, with ARG0 and ARG1 (R155). -/
  | tblrd
  deriving DecidableEq, Repr

end Sys2Proof
end

