-- ==== Sys2Proof/Config.lean ====
section
/-! DEFINITION. What the spec leaves open: the three open parameters of 92_eei_decisions.md section 4 (CAP, BASE,
UNDEF_READ) and the free values. All are opaque constants with no body, so no proof can lean on a value of theirs. -/

namespace Sys2Proof.Config

/-- The two treatments of a read of a buffer slot that nothing has written (R57). -/
inductive UndefRead where
  /-- The read faults the run, naming the command or the host access. -/
  | fault
  /-- The read returns a free byte under no law. -/
  | draw
  deriving DecidableEq, Repr, Inhabited

/-- How far CAP lies above its least value, before it is brought into range. Log entry 1. -/
opaque capExcess : Nat

/-- CAP, the capacity of each symbol buffer, in symbols (R5, D4): any integer with 256 <= CAP <= 2^24, and which one is
open. Log entry 1. -/
def cap : Nat := capExcess % (2 ^ 24 - 256 + 1) + 256

/-- BASE, where the platform places the 256-byte register window (R5, R63). Log entry 2. -/
opaque base : Nat

/-- UNDEF_READ, what a read of a never-written buffer slot does (R5, R57). Log entry 3. -/
opaque undefRead : UndefRead

/-- The byte that the `n`-th draw returns where UNDEF_READ is `draw` (R57). Log entry 3. -/
opaque freeByte : Nat → Byte

/-- The value that the `n`-th draw returns for a host read of RESULT, BDATA, BLEN or BENC while BUSY = 1 (R58, U2).
Log entry 4. -/
opaque freeWord : Nat → Word

/-- The character R91 does not give: that of a symbol which is not valid for its encoding. No reachable state renders
one (R18). Log entry 5. -/
opaque charOfInvalid : Enc → Byte → Byte

end Sys2Proof.Config
end

