-- ==== Sys2Proof/WellFormed.lean ====
section
/-! DEFINITION. Which terms of `Instr` stand for a legal command word. Buffer numbers are in range by their type; the
one check left is that E names HEX, B64 or RAW (R81, R85 item 4). -/

namespace Sys2Proof

/-- R81: the word cannot name TEXT, so E is restricted to 0 to 2. -/
def Enc.nameable : Enc → Bool
  | .hex => true
  | .b64 => true
  | .raw => true
  | .text => false

/-- The command is one that some legal word of R85 stands for. -/
def Instr.wellFormed : Instr → Bool
  | .nop => true
  | .parse _ _ e => e.nameable
  | .render _ _ => true
  | .convert _ _ e => e.nameable
  | .slice _ _ => true
  | .xor _ _ _ => true
  | .hamm _ _ => true
  | .keyexp _ => true
  | .dececb _ _ _ => true
  | .stld _ => true
  | .stst _ => true
  | .ark => true
  | .isr => true
  | .isb => true
  | .imc => true
  | .decblk => true
  | .rkrd _ => true
  | .tblrd => true

end Sys2Proof
end

