-- ==== Sys2Proof/Decode.lean ====
section
/-! DEFINITION. The command word (30_encoding.md): its fields, the decoder and the encoder. -/

namespace Sys2Proof

/-! ## Fields of the command word (R80) -/

/-- OP, bits 7:0. -/
def fieldOp (w : Word) : BitVec 8 := w.extractLsb' 0 8
/-- D, bits 10:8. -/
def fieldD (w : Word) : BitVec 3 := w.extractLsb' 8 3
/-- A, bits 13:11. -/
def fieldA (w : Word) : BitVec 3 := w.extractLsb' 11 3
/-- B, bits 16:14. -/
def fieldB (w : Word) : BitVec 3 := w.extractLsb' 14 3
/-- E, bits 18:17. -/
def fieldE (w : Word) : BitVec 2 := w.extractLsb' 17 2
/-- The reserved bits 31:19. -/
def fieldReserved (w : Word) : BitVec 13 := w.extractLsb' 19 13

/-- A three-bit field read as a buffer number (R81: all eight values are legal). -/
def bufNum (x : BitVec 3) : BufNum := ⟨x.toNat, x.isLt⟩

/-- A buffer number as a three-bit field. -/
def bufField (b : BufNum) : BitVec 3 := BitVec.ofNat 3 b.val

/-- The number of an encoding (R16). -/
def Enc.code : Enc → BitVec 2
  | .hex => 0
  | .b64 => 1
  | .raw => 2
  | .text => 3

/-- The encoding a number stands for (R16). -/
def Enc.ofCode (c : BitVec 2) : Enc :=
  match c.toNat with
  | 0 => .hex
  | 1 => .b64
  | 2 => .raw
  | _ => .text

/-! ## Decoding (R83, R85, R87) -/

/-- Why a word is illegal: the four conditions of R85. Every one completes the command with IllegalCommand (R183). -/
inductive Illegal where
  /-- R85 item 1: OP is 0x12 or more. -/
  | reservedOpcode
  /-- R85 item 2: bits [31:19] are not all zero. -/
  | reservedBits
  /-- R85 item 3: D is not used and not zero. -/
  | unusedD
  /-- R85 item 3: A is not used and not zero. -/
  | unusedA
  /-- R85 item 3: B is not used and not zero. -/
  | unusedB
  /-- R85 item 3: E is not used and not zero. -/
  | unusedE
  /-- R85 item 4: E is used and is 3. -/
  | illegalEncoding
  deriving DecidableEq, Repr

/-- R85 item 3: a field the command does not use must be zero. -/
def requireZero {n : Nat} (x : BitVec n) (why : Illegal) (k : Except Illegal Instr) : Except Illegal Instr :=
  if x = 0 then k else .error why

/-- R85 item 4: E = 3 is illegal where E is used. -/
def requireEnc (w : Word) (k : Enc → Except Illegal Instr) : Except Illegal Instr :=
  if fieldE w = 3 then .error .illegalEncoding else k (Enc.ofCode (fieldE w))

/-- The row of R83 that the opcode selects, with the checks on its fields. -/
def decodeFields (w : Word) : Except Illegal Instr :=
  let d := bufNum (fieldD w)
  let a := bufNum (fieldA w)
  let b := bufNum (fieldB w)
  let noD := requireZero (fieldD w) .unusedD
  let noA := requireZero (fieldA w) .unusedA
  let noB := requireZero (fieldB w) .unusedB
  let noE := requireZero (fieldE w) .unusedE
  match (fieldOp w).toNat with
  | 0x00 => noD <| noA <| noB <| noE <| .ok .nop
  | 0x01 => noB <| requireEnc w fun e => .ok (.parse d a e)
  | 0x02 => noB <| noE <| .ok (.render d a)
  | 0x03 => noB <| requireEnc w fun e => .ok (.convert d a e)
  | 0x04 => noB <| noE <| .ok (.slice d a)
  | 0x05 => noE <| .ok (.xor d a b)
  | 0x06 => noD <| noE <| .ok (.hamm a b)
  | 0x07 => noD <| noB <| noE <| .ok (.keyexp a)
  | 0x08 => noE <| .ok (.dececb d a b)
  | 0x09 => noD <| noB <| noE <| .ok (.stld a)
  | 0x0A => noA <| noB <| noE <| .ok (.stst d)
  | 0x0B => noD <| noA <| noB <| noE <| .ok .ark
  | 0x0C => noD <| noA <| noB <| noE <| .ok .isr
  | 0x0D => noD <| noA <| noB <| noE <| .ok .isb
  | 0x0E => noD <| noA <| noB <| noE <| .ok .imc
  | 0x0F => noD <| noA <| noB <| noE <| .ok .decblk
  | 0x10 => noA <| noB <| noE <| .ok (.rkrd d)
  | 0x11 => noD <| noA <| noB <| noE <| .ok .tblrd
  | _ => .error .reservedOpcode

/-- The decoder: total on every 32-bit word, refusing by name (R85, R87). -/
def decode (w : Word) : Except Illegal Instr :=
  requireZero (fieldReserved w) .reservedBits (decodeFields w)

/-! ## Encoding (R84) -/

/-- R84: `word = (e << 17) | (b << 14) | (a << 11) | (d << 8) | op`. -/
def assemble (op : BitVec 8) (d a b : BitVec 3) (e : BitVec 2) : Word :=
  (e.setWidth 32 <<< 17) ||| (b.setWidth 32 <<< 14) ||| (a.setWidth 32 <<< 11) ||| (d.setWidth 32 <<< 8)
    ||| op.setWidth 32

/-- The opcode of a command (R83). -/
def opcode : Instr → BitVec 8
  | .nop => 0x00
  | .parse _ _ _ => 0x01
  | .render _ _ => 0x02
  | .convert _ _ _ => 0x03
  | .slice _ _ => 0x04
  | .xor _ _ _ => 0x05
  | .hamm _ _ => 0x06
  | .keyexp _ => 0x07
  | .dececb _ _ _ => 0x08
  | .stld _ => 0x09
  | .stst _ => 0x0A
  | .ark => 0x0B
  | .isr => 0x0C
  | .isb => 0x0D
  | .imc => 0x0E
  | .decblk => 0x0F
  | .rkrd _ => 0x10
  | .tblrd => 0x11

/-- The command word of a command, unused fields zero (R84). -/
def encode (i : Instr) : Word :=
  let op := opcode i
  match i with
  | .nop => assemble op 0 0 0 0
  | .parse d a e => assemble op (bufField d) (bufField a) 0 e.code
  | .render d a => assemble op (bufField d) (bufField a) 0 0
  | .convert d a e => assemble op (bufField d) (bufField a) 0 e.code
  | .slice d a => assemble op (bufField d) (bufField a) 0 0
  | .xor d a b => assemble op (bufField d) (bufField a) (bufField b) 0
  | .hamm a b => assemble op 0 (bufField a) (bufField b) 0
  | .keyexp a => assemble op 0 (bufField a) 0 0
  | .dececb d a b => assemble op (bufField d) (bufField a) (bufField b) 0
  | .stld a => assemble op 0 (bufField a) 0 0
  | .stst d => assemble op (bufField d) 0 0 0
  | .ark => assemble op 0 0 0 0
  | .isr => assemble op 0 0 0 0
  | .isb => assemble op 0 0 0 0
  | .imc => assemble op 0 0 0 0
  | .decblk => assemble op 0 0 0 0
  | .rkrd d => assemble op (bufField d) 0 0 0
  | .tblrd => assemble op 0 0 0 0

/-- The command word whose bits are the low `nbits` bits of `w`, every bit above them zero. A command is one 32-bit
word (R80), so nothing above bit 31 is left. -/
def tableWord (nbits w : Nat) : Word := BitVec.ofNat 32 (w % 2 ^ nbits)

/-- What the decoder reads from an instruction whose bits are `w`; the block's one word has no byte order to lay out
(R59). -/
def decodeTableWord (nbits w : Nat) : Option Instr :=
  match decode (tableWord nbits w) with
  | .ok i => some i
  | .error _ => none

end Sys2Proof
end

