-- ==== Sys2Proof/Machine/State.lean ====
section
/-! DEFINITION. The state of the block (10_state.md), the HOST's side of the bus, and the reasons a step can stop. -/

namespace Sys2Proof.Machine

/-- The symbol array of one buffer: its defined slots as (index, symbol) pairs, indexes strictly rising (`Memory.wf`). An
index that is not listed is a slot whose defined status is false (R19): it has no value. Log entry 14. -/
abbrev Memory := List Host.Cell

/-- One symbol buffer: one Storage value or one character string (R15). -/
structure Buffer where
  /-- The encoding tag (R16). -/
  enc : Enc
  /-- The length in symbols, 0 <= len <= CAP (R17). -/
  len : Nat
  /-- The symbol array, slots 0 to CAP - 1 (R18, R19). -/
  sym : Memory
  deriving DecidableEq, Repr

/-- Sixteen bytes: an AES state or one round key, byte `r + 4c` at row r and column c (R20, R21). -/
abbrev Block := Vector Byte 16

/-- The eleven round keys (R21). -/
abbrev KeyTable := Vector Block 11

/-- The completion codes (R180). -/
inductive Code where
  | none
  | invalidSymbol
  | misalignedEncoding
  | encodingMismatch
  | emptyOperand
  | lengthMismatch
  | indexOutOfRange
  | invalidBlockLength
  | invalidKeyLength
  | illegalCommand
  | capacityExceeded
  | noKeySchedule
  | paddingOperand
  deriving DecidableEq, Repr

/-- One event of the serial order of R64 and R158. An offset is a byte offset from BASE (R8). -/
inductive Event where
  /-- `MemRead(offset, 4)` by the HOST (R51). -/
  | read (offset : BitVec 8)
  /-- `MemWrite(offset, 4, value)` by the HOST (R52). -/
  | write (offset : BitVec 8) (value : Word)
  /-- The ENGINE's turn: it takes its step if one is enabled (R160). -/
  | engine
  /-- The platform asserts the hardware reset (R200). -/
  | reset
  deriving DecidableEq, Repr

/-- The state of the block, and three fields of the model's own at the end. -/
structure State where
  /-- CTRL.IE (R25). -/
  ie : Bool
  /-- STATUS.BUSY (R26): a command is in progress (R45). -/
  busy : Bool
  /-- STATUS.DONE (R27). -/
  done : Bool
  /-- STATUS.OVR (R29). -/
  ovr : Bool
  /-- STATUS.PERR (R30). -/
  perr : Bool
  /-- STATUS.ERRCODE (R32). ERR is `errcode != 0` (R28) and has no state of its own. -/
  errcode : BitVec 8
  /-- CMD (R33). -/
  cmd : Word
  /-- ARG0 (R34). -/
  arg0 : Word
  /-- ARG1 (R34). -/
  arg1 : Word
  /-- RESULT (R35). -/
  result : Word
  /-- BSEL, the bits that exist (R37). -/
  bsel : BitVec 3
  /-- BIDX (R38). -/
  bidx : Word
  /-- The symbol buffers S0 to S7 (R15). -/
  bufs : Vector Buffer 8
  /-- ST, the AES state register (R20). -/
  st : Block
  /-- KSV, STATUS bit 5 (R22, R31). -/
  ksv : Bool
  /-- RK, the key-expansion table (R21). -/
  rk : KeyTable
  /-- MODEL: the events still to come, in the order the bus delivers them (R158). Log entry 6. -/
  schedule : List Event
  /-- MODEL: what the HOST's latest read returned, or none before its first read. Log entry 7. -/
  rdata : Option Word
  /-- MODEL: how many free values the run has drawn. Log entry 8. -/
  draws : Nat
  deriving DecidableEq, Repr

/-- Why the machine stops with a fault: a read of a never-written slot where UNDEF_READ is `fault` (R57, U1). Safe: the
hardware goes on with whatever byte the storage holds, and nothing is claimed of that run. -/
inductive Fault where
  /-- Raised by a command (its mnemonic) that reads slot `index` of its operand `buffer`. Safe. -/
  | undefinedOperand (mnemonic : String) (buffer : BufNum) (index : Nat)
  /-- Raised by a host read of BDATA at slot `index` of the selected `buffer`. Safe. -/
  | undefinedPortRead (buffer : BufNum) (index : Nat)
  deriving DecidableEq, Repr

/-- Why the model gives a step no meaning. No step of this model is refused. -/
inductive Refusal where
  /-- Raised by `exec` for a command whose meaning the model lacks; there is none. Safe. -/
  | notModelled (mnemonic : String)
  deriving DecidableEq, Repr

/-- A buffer after reset: an empty RAW Storage whose slots are all undefined (R46, R202). -/
def Buffer.empty : Buffer := { enc := .raw, len := 0, sym := [] }

/-- Sixteen zero bytes. -/
def Block.zero : Block := Vector.replicate 16 0

/-- The machine right after reset (R46). DESIGN CHOICE (log entry 9): R46 leaves RK unspecified, and the model holds
zeros there; no command reads RK while KSV = 0 (R181). The last three fields are the model's own, and so are their values
(DESIGN CHOICE, log entry 12). -/
def State.reset : State where
  ie := false
  busy := false
  done := false
  ovr := false
  perr := false
  errcode := 0
  cmd := 0
  arg0 := 0
  arg1 := 0
  result := 0
  bsel := 0
  bidx := 0
  bufs := Vector.replicate 8 Buffer.empty
  st := Block.zero
  ksv := false
  rk := Vector.replicate 11 Block.zero
  schedule := []
  rdata := none
  draws := 0

end Sys2Proof.Machine
end

