-- ==== Sys2Proof/Machine/Flags.lean ====
section
/-! DEFINITION. The STATUS and CTRL words, the numbers of the completion codes, and the interrupt level. -/

namespace Sys2Proof.Machine

/-- The number of a completion code (R180). -/
def Code.num : Code → BitVec 8
  | .none => 0
  | .invalidSymbol => 1
  | .misalignedEncoding => 2
  | .encodingMismatch => 3
  | .emptyOperand => 4
  | .lengthMismatch => 5
  | .indexOutOfRange => 6
  | .invalidBlockLength => 7
  | .invalidKeyLength => 8
  | .illegalCommand => 9
  | .capacityExceeded => 10
  | .noKeySchedule => 11
  | .paddingOperand => 12

/-- STATUS.ERR, bit 2: always ERRCODE != 0 (R28). -/
def State.err (s : State) : Bool := s.errcode != 0

/-- STATUS as a host read returns it (R26 to R32, R44). -/
def State.statusWord (s : State) : Word :=
  0#16 ++ s.errcode ++ 0#2 ++ BitVec.ofBool s.ksv ++ BitVec.ofBool s.perr ++ BitVec.ofBool s.ovr
    ++ BitVec.ofBool s.err ++ BitVec.ofBool s.done ++ BitVec.ofBool s.busy

/-- CTRL as a host read returns it: IE in bit 0, SRST and the reserved bits 0 (R25). -/
def State.ctrlWord (s : State) : Word := (BitVec.ofBool s.ie).setWidth 32

/-- The interrupt output: the level DONE AND IE (R43). -/
def State.irq (s : State) : Bool := s.done && s.ie

/-- A host write of `v` to STATUS: bits 1, 3 and 4 clear DONE, OVR and PERR where they are 1; nothing else changes
(R27, R29, R30, R32). -/
def State.writeStatus (s : State) (v : Word) : State :=
  { s with
    done := s.done && !v.getLsbD 1
    ovr := s.ovr && !v.getLsbD 3
    perr := s.perr && !v.getLsbD 4 }

/-- The end of a command with completion code `c` (R160, R182): ERRCODE, DONE and BUSY. -/
def State.complete (s : State) (c : Code) : State :=
  { s with errcode := c.num, done := true, busy := false }

end Sys2Proof.Machine
end

