-- ==== Sys2Proof/Machine/Ops.lean ====
section
/-! DEFINITION. The named operations every meaning is written with: slots and buffers (R8), reading an operand with
UNDEF_READ (R57), accepting and completing a command (R159, R160, R182), and reset (R200). The block has no trap: its
one way of reporting an error is a completion code (R187), and `raise` is that operation. -/

namespace Sys2Proof.Machine

/-! ## One symbol array -/

/-- The canonical form: indexes strictly rising. There is no reset value to drop: an unlisted slot is undefined. -/
abbrev Memory.wf (m : Memory) : Prop := m.Pairwise fun c c' => c.1 < c'.1

/-- Slot `i`, or none where its defined status is false (R19). -/
def Memory.read : Memory → Nat → Option Byte
  | [], _ => none
  | (a, v) :: m, i => if a = i then some v else Memory.read m i

/-- Store `v` into slot `i`, which becomes defined (R19). -/
def Memory.write : Memory → Nat → Byte → Memory
  | [], i, v => [(i, v)]
  | (a, u) :: m, i, v =>
    if i < a then (i, v) :: (a, u) :: m
    else if i = a then (i, v) :: m
    else (a, u) :: Memory.write m i v

/-- Store a symbol sequence into the slots from `i` on (R7: in ascending index order). -/
def Memory.writeSeq : Memory → Nat → List Byte → Memory
  | m, _, [] => m
  | m, i, v :: q => Memory.writeSeq (m.write i v) (i + 1) q

/-- Read slot `i` after `d` draws (R57): the stored symbol, or what UNDEF_READ gives, with the number of draws then. -/
def readSlot (m : Memory) (i d : Nat) : Option (Byte × Nat) :=
  match m.read i with
  | some v => some (v, d)
  | none =>
    match Config.undefRead with
    | .fault => none
    | .draw => some (Config.freeByte d, d + 1)

/-- Read the `n` slots from `i` on, in ascending order (R7), or give the index of the first slot that faults. -/
def readSeq (m : Memory) : Nat → Nat → Nat → Except Nat (List Byte × Nat)
  | _, 0, d => .ok ([], d)
  | i, n + 1, d =>
    match readSlot m i d with
    | none => .error i
    | some (v, d') =>
      match readSeq m (i + 1) n d' with
      | .error j => .error j
      | .ok (q, d'') => .ok (v :: q, d'')

/-- `Syms(b)` of R8: the symbols 0 to len - 1 of a buffer, after `d` draws. -/
def Buffer.syms (b : Buffer) (d : Nat) : Except Nat (List Byte × Nat) := readSeq b.sym 0 b.len d

/-! ## The buffers -/

/-- Buffer `b` (R15). -/
def State.buf (s : State) (b : BufNum) : Buffer := s.bufs.get b

/-- Replace buffer `b`. -/
def State.setBuf (s : State) (b : BufNum) (x : Buffer) : State :=
  { s with bufs := s.bufs.set b.val x b.isLt }

/-- `S[b].sym[i]`, or none where the slot is undefined. -/
def State.slot (s : State) (b : BufNum) (i : Nat) : Option Byte := (s.buf b).sym.read i

/-- `BufWrite(b, enc, q)` of R8: tag, length and the first len(q) slots; the slots above keep their contents. -/
def State.bufWrite (s : State) (b : BufNum) (e : Enc) (q : List Byte) : State :=
  s.setBuf b { enc := e, len := q.length, sym := (s.buf b).sym.writeSeq 0 q }

/-- Set the number of draws. -/
def State.withDraws (s : State) (d : Nat) : State := { s with draws := d }

/-! ## The lifecycle of a command -/

/-- What one step answers. -/
abbrev Result := Host.Outcome State Fault Refusal

/-- Accept the command word `v` (R159): nothing is decoded or checked here. -/
def State.accept (s : State) (v : Word) : State :=
  { s with cmd := v, busy := true, done := false, errcode := 0 }

/-- `raise Error(c)` (R8, R160, R182): the command completes with code `c` and writes nothing else. -/
def raise (c : Code) (s : State) : Result := .next (s.complete c)

/-- The command completes with code NONE (R160); `s` already holds what it writes. -/
def succeed (s : State) : Result := .next (s.complete .none)

/-! ## Reset -/

/-- The actions of a reset, hardware or soft (R46, R200, R201): the block is as `State.reset`. The events to come, what
the HOST has read and the number of draws are not the block's and stay. -/
def State.resetBlock (s : State) : State :=
  { State.reset with schedule := s.schedule, rdata := s.rdata, draws := s.draws }

end Sys2Proof.Machine
end

