-- ==== Sys2Proof/Machine/Operands.lean ====
section
/-! DEFINITION. The operand forms of the commands: text and Storage operands (R90), symbol sequences (R8), numeric
operands in ARG0 and ARG1 (R82). -/

namespace Sys2Proof.Machine

/-- R90: a Storage operand is a buffer whose tag is HEX, B64 or RAW. -/
def Buffer.isStorage (b : Buffer) : Bool := b.enc != .text

/-- R90: a text operand is a buffer whose tag is TEXT. -/
def Buffer.isText (b : Buffer) : Bool := b.enc == .text

/-- ARG0 as an unsigned integer (R82). -/
def State.arg0Nat (s : State) : Nat := s.arg0.toNat

/-- ARG1 as an unsigned integer (R82). -/
def State.arg1Nat (s : State) : Nat := s.arg1.toNat

/-- Read `Syms(b)` for the command `mnemonic` and go on with the sequence (R8). The state handed on differs from `s` in
the number of draws alone. Where UNDEF_READ is `fault` and a slot is undefined, the run faults (R57). -/
def withSyms (mnemonic : String) (b : BufNum) (s : State) (k : List Byte → State → Result) : Result :=
  match (s.buf b).syms s.draws with
  | .error i => .fault (.undefinedOperand mnemonic b i)
  | .ok (q, d) => k q (s.withDraws d)

end Sys2Proof.Machine
end

