-- ==== Sys2Proof/Machine/Bus.lean ====
section
/-! DEFINITION. Host accesses to the register window (10_state.md section 4, 20_memory.md sections 2 to 4). -/

namespace Sys2Proof.Machine

/-! ## The register map -/

/-- The registers of R44; `unmapped` stands for the offsets 0x34 to 0xFC (R42). -/
inductive Reg where
  | id | ctrl | status | cmd | arg0 | arg1 | result | bsel | bidx | bdata | blen | benc | capr | unmapped
  deriving DecidableEq, Repr

/-- The register at a byte offset: the bus carries offset[7:2] alone (R44, R51). DEDUCED (log entry 16): the two low bits
of an offset are ignored. -/
def regAt (offset : BitVec 8) : Reg :=
  match (offset.extractLsb' 2 6).toNat with
  | 0x00 => .id
  | 0x01 => .ctrl
  | 0x02 => .status
  | 0x03 => .cmd
  | 0x04 => .arg0
  | 0x05 => .arg1
  | 0x06 => .result
  | 0x07 => .bsel
  | 0x08 => .bidx
  | 0x09 => .bdata
  | 0x0A => .blen
  | 0x0B => .benc
  | 0x0C => .capr
  | _ => .unmapped

/-- The byte offset in the window of an address of the platform's bus, or none for an address outside the window, whose
access does not reach the block (R5, R63). -/
def windowOffset (address : Nat) : Option (BitVec 8) :=
  if Config.base ≤ address ∧ address < Config.base + 256 then some (BitVec.ofNat 8 (address - Config.base)) else none

/-- The constant of ID (R24). -/
def idWord : Word := 0x43504C01

/-- CAPR (R36). -/
def caprWord : Word := BitVec.ofNat 32 Config.cap

/-! ## Reads (R51, R53, R58) -/

/-- The buffer BSEL selects (R37). -/
def State.selected (s : State) : BufNum := bufNum s.bsel

/-- The HOST gets `v` back; nothing of the block changes. -/
def State.answer (s : State) (v : Word) : State := { s with rdata := some v }

/-- R58: a read that a command in progress makes illegal returns an unspecified value and sets OVR. -/
def State.overrunRead (s : State) : State :=
  { s with rdata := some (Config.freeWord s.draws), draws := s.draws + 1, ovr := true }

/-- A host read of BDATA while BUSY = 0 (R53). -/
def readBdata (s : State) : Result :=
  if s.bidx.toNat ≥ Config.cap then .next { s with perr := true, rdata := some 0 }
  else
    match readSlot (s.buf s.selected).sym s.bidx.toNat s.draws with
    | none => .fault (.undefinedPortRead s.selected s.bidx.toNat)
    | some (v, d) => .next { s with bidx := s.bidx + 1, draws := d, rdata := some (v.setWidth 32) }

/-- `MemRead(offset, 4)` (R51), with R58 while BUSY = 1. -/
def hostRead (offset : BitVec 8) (s : State) : Result :=
  match regAt offset with
  | .id => .next (s.answer idWord)
  | .ctrl => .next (s.answer s.ctrlWord)
  | .status => .next (s.answer s.statusWord)
  | .cmd => .next (s.answer s.cmd)
  | .arg0 => .next (s.answer s.arg0)
  | .arg1 => .next (s.answer s.arg1)
  | .result => if s.busy then .next s.overrunRead else .next (s.answer s.result)
  | .bsel => .next (s.answer (s.bsel.setWidth 32))
  | .bidx => .next (s.answer s.bidx)
  | .bdata => if s.busy then .next s.overrunRead else readBdata s
  | .blen => if s.busy then .next s.overrunRead else .next (s.answer (BitVec.ofNat 32 (s.buf s.selected).len))
  | .benc => if s.busy then .next s.overrunRead else .next (s.answer ((s.buf s.selected).enc.code.setWidth 32))
  | .capr => .next (s.answer caprWord)
  | .unmapped => .next (s.answer 0)

/-! ## Writes (R52, R54 to R56, R58) -/

/-- R54, R55: the HOST may change the contents and the length of RAW and TEXT buffers alone. -/
def Buffer.hostWritable (b : Buffer) : Bool := b.enc == .raw || b.enc == .text

/-- A refused port access: it sets PERR and does nothing else (R30). -/
def State.refusePort (s : State) : State := { s with perr := true }

/-- A host write of BDATA while BUSY = 0 (R54). -/
def writeBdata (v : Word) (s : State) : State :=
  let b := s.buf s.selected
  if s.bidx.toNat ≥ Config.cap ∨ b.hostWritable = false then s.refusePort
  else
    { s.setBuf s.selected { b with sym := b.sym.write s.bidx.toNat (v.extractLsb' 0 8) } with bidx := s.bidx + 1 }

/-- A host write of BLEN while BUSY = 0 (R55). -/
def writeBlen (v : Word) (s : State) : State :=
  let b := s.buf s.selected
  if v.toNat > Config.cap ∨ b.hostWritable = false then s.refusePort
  else s.setBuf s.selected { b with len := v.toNat }

/-- A host write of BENC while BUSY = 0: RAW and TEXT alone are accepted (R56). -/
def writeBenc (v : Word) (s : State) : State :=
  match Enc.ofCode (v.extractLsb' 0 2) with
  | .raw => s.setBuf s.selected { s.buf s.selected with enc := .raw }
  | .text => s.setBuf s.selected { s.buf s.selected with enc := .text }
  | .hex => s.refusePort
  | .b64 => s.refusePort

/-- A host write of CTRL: SRST = 1 resets and ignores the IE of that write; else IE takes bit 0 (R25, R201). -/
def writeCtrl (v : Word) (s : State) : State :=
  if v.getLsbD 1 then s.resetBlock else { s with ie := v.getLsbD 0 }

/-- R58: a write that a command in progress makes illegal is ignored and sets OVR. DEDUCED (log entry 11): a write of a
read-only register is one of them. -/
def State.overrunWrite (s : State) : State := { s with ovr := true }

/-- A host write while BUSY = 0 to a register other than CTRL and STATUS (R52). -/
def writeIdle (r : Reg) (v : Word) (s : State) : State :=
  match r with
  | .id => s
  | .ctrl => s
  | .status => s
  | .cmd => s.accept v
  | .arg0 => { s with arg0 := v }
  | .arg1 => { s with arg1 := v }
  | .result => s
  | .bsel => { s with bsel := v.extractLsb' 0 3 }
  | .bidx => { s with bidx := v }
  | .bdata => writeBdata v s
  | .blen => writeBlen v s
  | .benc => writeBenc v s
  | .capr => s
  | .unmapped => s

/-- `MemWrite(offset, 4, v)` (R52), with R58 while BUSY = 1. -/
def hostWrite (offset : BitVec 8) (v : Word) (s : State) : State :=
  match regAt offset with
  | .ctrl => writeCtrl v s
  | .status => s.writeStatus v
  | .unmapped => s
  | r => if s.busy then s.overrunWrite else writeIdle r v s

end Sys2Proof.Machine
end

