-- ==== Sys2Proof/Machine/Aes.lean ====
section
/-! DEFINITION. The AES-128 inverse cipher as pure functions on 16-byte blocks (42_aes.md section 1). The byte at row r,
column c of a block is byte `r + 4c` (R20, R60). -/

namespace Sys2Proof.Machine

/-- Bytes `o` to `o + 15` of a sequence as a block: byte i of the block is symbol `o + i` (R60). -/
def blockAt (q : List Byte) (o : Nat) : Block := Vector.ofFn fun i => q.getD (o + i.val) 0

/-- The block's bytes, byte 0 first. -/
def Block.bytes (s : Block) : List Byte := s.toList

/-- R120: `[ s[i] ^ k[i] for i in 0 .. 15 ]`. -/
def addRoundKey (s k : Block) : Block := Vector.ofFn fun i => s.get i ^^^ k.get i

/-- The index `r + 4 * ((c - r) mod 4)` that byte `i = r + 4c` comes from under R121. -/
def shiftSource (i : Fin 16) : Fin 16 :=
  ⟨i.val % 4 + 4 * ((i.val / 4 + 4 - i.val % 4) % 4), by omega⟩

/-- R121: `t[r + 4c] = s[r + 4*((c - r) mod 4)]`. -/
def invShiftRows (s : Block) : Block := Vector.ofFn fun i => s.get (shiftSource i)

/-- R122: every byte replaced through INV_SBOX. -/
def invSubBytes (s : Block) : Block := Vector.ofFn fun i => invSbox (s.get i)

/-- R123: one byte of a column `[c0, c1, c2, c3]`, in row `r`. -/
def invMixByte (r : Nat) (c0 c1 c2 c3 : Byte) : Byte :=
  match r with
  | 0 => mul14 c0 ^^^ mul11 c1 ^^^ mul13 c2 ^^^ mul9 c3
  | 1 => mul9 c0 ^^^ mul14 c1 ^^^ mul11 c2 ^^^ mul13 c3
  | 2 => mul13 c0 ^^^ mul9 c1 ^^^ mul14 c2 ^^^ mul11 c3
  | _ => mul11 c0 ^^^ mul13 c1 ^^^ mul9 c2 ^^^ mul14 c3

/-- The index of the byte in row `r` of the column that holds byte `i`. -/
def columnByte (i : Fin 16) (r : Fin 4) : Fin 16 := ⟨4 * (i.val / 4) + r.val, by omega⟩

/-- R123: every column replaced by its product. -/
def invMixColumns (s : Block) : Block :=
  Vector.ofFn fun i =>
    invMixByte (i.val % 4) (s.get (columnByte i 0)) (s.get (columnByte i 1)) (s.get (columnByte i 2))
      (s.get (columnByte i 3))

/-! ## Key schedule (R124) -/

/-- R124: the transformed last word of round key `p`: rotated left one byte, substituted, and RCON[i] XORed to its first
byte. -/
def scheduleWord (i : Nat) (p : Block) : Fin 4 → Byte
  | 0 => sbox (p.get 13) ^^^ (rcon i).getD 0
  | 1 => sbox (p.get 14)
  | 2 => sbox (p.get 15)
  | 3 => sbox (p.get 12)

/-- R124: byte `j` of word `c` of W[i], from W[i-1] = `p`: word 0 takes the transformed word, and every later word the
word before it. -/
def nextKeyByte (i : Nat) (p : Block) (j : Fin 4) : (c : Nat) → (h : c < 4) → Byte
  | 0, _ => p.get ⟨j.val, by omega⟩ ^^^ scheduleWord i p j
  | c + 1, h => nextKeyByte i p j c (by omega) ^^^ p.get ⟨4 * (c + 1) + j.val, by omega⟩

/-- R124: W[i] from W[i-1] = `p`. -/
def nextRoundKey (i : Nat) (p : Block) : Block :=
  Vector.ofFn fun b => nextKeyByte i p ⟨b.val % 4, by omega⟩ (b.val / 4) (by omega)

/-- R124: W[n] of the key `k`. -/
def roundKey (k : Block) : Nat → Block
  | 0 => k
  | n + 1 => nextRoundKey (n + 1) (roundKey k n)

/-- `KeyExpansion(k)` of R124: W[0] to W[10]. -/
def keyExpansion (k : Block) : KeyTable := Vector.ofFn fun n => roundKey k n.val

/-! ## The inverse cipher (R125) -/

/-- One of the nine rounds of R125, with the round key `k`. -/
def invRound (s k : Block) : Block := invMixColumns (addRoundKey (invSubBytes (invShiftRows s)) k)

/-- The final round of R125, with the round key `k`. -/
def invFinalRound (s k : Block) : Block := addRoundKey (invSubBytes (invShiftRows s)) k

/-- The round keys of rounds 1 to 9, `W[10 - round]` (R125, D19). -/
def roundOrder : List (Fin 11) := [9, 8, 7, 6, 5, 4, 3, 2, 1]

/-- `InvCipher(s, W)` of R125. -/
def invCipher (s : Block) (w : KeyTable) : Block :=
  invFinalRound (roundOrder.foldl (fun t n => invRound t (w.get n)) (addRoundKey s (w.get 10))) (w.get 0)

/-- The blocks of a ciphertext decrypted independently with one key schedule and concatenated (R127). -/
def decryptEcb (c : List Byte) (w : KeyTable) : List Byte :=
  (List.range (c.length / 16)).flatMap fun j => (invCipher (blockAt c (16 * j)) w).bytes

end Sys2Proof.Machine
end

