-- ==== Sys2Proof/Machine/Cipher.lean ====
section
/-! DEFINITION. The AES-128 inverse-cipher family: KEYEXP, DECECB, STLD, STST, ARK, ISR, ISB, IMC, DECBLK, RKRD
(42_aes.md section 2). The checks stand in the order of R184. -/

namespace Sys2Proof.Machine

/-- RK <- W; KSV <- 1 (R126, R127). -/
def State.setKeys (s : State) (w : KeyTable) : State := { s with rk := w, ksv := true }

/-- ST <- b. -/
def State.setSt (s : State) (b : Block) : State := { s with st := b }

/-- R130, R135: go on with round key RK[ARG0], where KSV = 1 and ARG0 <= 10. -/
def withRoundKey (s : State) (k : Block → Result) : Result :=
  if s.ksv = false then raise .noKeySchedule s
  else if h : s.arg0Nat < 11 then k (s.rk.get ⟨s.arg0Nat, h⟩)
  else raise .indexOutOfRange s

/-- KEYEXP sA (R126). -/
def execKeyexp (a : BufNum) (s : State) : Result :=
  if (s.buf a).enc ≠ .raw then raise .encodingMismatch s
  else if (s.buf a).len ≠ 16 then raise .invalidKeyLength s
  else withSyms "KEYEXP" a s fun q s => succeed (s.setKeys (keyExpansion (blockAt q 0)))

/-- DECECB sD, sA, sB (R127). ST is not touched (D18). -/
def execDececb (d a b : BufNum) (s : State) : Result :=
  if (s.buf a).enc ≠ .raw ∨ (s.buf b).enc ≠ .raw then raise .encodingMismatch s
  else if (s.buf a).len % 16 ≠ 0 then raise .invalidBlockLength s
  else if (s.buf b).len ≠ 16 then raise .invalidKeyLength s
  else withSyms "DECECB" b s fun key s => withSyms "DECECB" a s fun c s =>
    succeed ((s.setKeys (keyExpansion (blockAt key 0))).bufWrite d .raw
      (decryptEcb c (keyExpansion (blockAt key 0))))

/-- STLD sA (R128). -/
def execStld (a : BufNum) (s : State) : Result :=
  if (s.buf a).enc ≠ .raw then raise .encodingMismatch s
  else if (s.buf a).len ≠ 16 then raise .invalidBlockLength s
  else withSyms "STLD" a s fun q s => succeed (s.setSt (blockAt q 0))

/-- STST sD (R129). -/
def execStst (d : BufNum) (s : State) : Result := succeed (s.bufWrite d .raw s.st.bytes)

/-- ARK, with round number ARG0 (R130). -/
def execArk (s : State) : Result := withRoundKey s fun k => succeed (s.setSt (addRoundKey s.st k))

/-- ISR (R131). -/
def execIsr (s : State) : Result := succeed (s.setSt (invShiftRows s.st))

/-- ISB (R132). -/
def execIsb (s : State) : Result := succeed (s.setSt (invSubBytes s.st))

/-- IMC (R133). -/
def execImc (s : State) : Result := succeed (s.setSt (invMixColumns s.st))

/-- DECBLK (R134). -/
def execDecblk (s : State) : Result :=
  if s.ksv = false then raise .noKeySchedule s else succeed (s.setSt (invCipher s.st s.rk))

/-- RKRD sD, with round number ARG0 (R135). -/
def execRkrd (d : BufNum) (s : State) : Result := withRoundKey s fun k => succeed (s.bufWrite d .raw k.bytes)

end Sys2Proof.Machine
end

