-- ==== Sys2Proof/Machine/Codec.lean ====
section
/-! DEFINITION. The base-encoding bit-packer as pure functions: the alphabets (R91), the valid symbols (R16) and the
packing of R94 to R96. -/

namespace Sys2Proof.Machine

/-- Which symbol values an encoding admits (R16). -/
def validSym (e : Enc) (v : Byte) : Bool :=
  match e with
  | .hex => v.toNat ≤ 15
  | .b64 => v.toNat ≤ 63 || v == 255
  | .raw => true
  | .text => true

/-! ## Alphabets (R91) -/

/-- The code `c` lies in the range `lo` to `hi`. -/
def inRange (c : Byte) (lo hi : Nat) : Bool := lo ≤ c.toNat && c.toNat ≤ hi

/-- `CharToSym(enc, c)` of R91; none stands for INVALID. TEXT names no alphabet. -/
def charToSym (e : Enc) (c : Byte) : Option Byte :=
  match e with
  | .hex =>
    if inRange c 0x30 0x39 then some (c - 0x30)
    else if inRange c 0x41 0x46 then some (c - 0x37)
    else if inRange c 0x61 0x66 then some (c - 0x57)
    else none
  | .b64 =>
    if inRange c 0x41 0x5A then some (c - 0x41)
    else if inRange c 0x61 0x7A then some (c - 0x47)
    else if inRange c 0x30 0x39 then some (c + 0x04)
    else if c = 0x2B then some 62
    else if c = 0x2F then some 63
    else if c = 0x3D then some 255
    else none
  | .raw => some c
  | .text => none

/-- `SymToChar(enc, v)` of R91. A symbol that is not valid for its encoding has no row there: its character is a free
value (log entry 5). -/
def symToChar (e : Enc) (v : Byte) : Byte :=
  match e with
  | .hex =>
    if inRange v 0 9 then 0x30 + v
    else if inRange v 10 15 then 0x57 + v
    else Config.charOfInvalid e v
  | .b64 =>
    if inRange v 0 25 then v + 0x41
    else if inRange v 26 51 then v + 0x47
    else if inRange v 52 61 then v - 0x04
    else if v = 62 then 0x2B
    else if v = 63 then 0x2F
    else if v = 255 then 0x3D
    else Config.charOfInvalid e v
  | .raw => v
  | .text => Config.charOfInvalid e v

/-- The loop of PARSE (R92): the symbols of a text, or none where some character is outside the alphabet. -/
def parseSyms (e : Enc) : List Byte → Option (List Byte)
  | [] => some []
  | c :: t =>
    match charToSym e c, parseSyms e t with
    | some v, some q => some (v :: q)
    | _, _ => none

/-! ## Packing (R94 to R96), most-significant-first (R59) -/

/-- The low four bits of a symbol, `q[i][3:0]`. -/
def nibble (v : Byte) : BitVec 4 := v.extractLsb' 0 4

/-- The low six bits of a symbol, `q[i][5:0]`. -/
def sextet (v : Byte) : BitVec 6 := v.extractLsb' 0 6

/-- `v[lo+n-1:lo]` as a symbol. -/
def symAt {w : Nat} (v : BitVec w) (lo n : Nat) : Byte := (v.extractLsb' lo n).setWidth 8

/-- R94: three nibbles (12 bits) to two sextets. -/
def groupsHexB64 : List Byte → List Byte
  | a :: b :: c :: q =>
    let v : BitVec 12 := nibble a ++ nibble b ++ nibble c
    symAt v 6 6 :: symAt v 0 6 :: groupsHexB64 q
  | _ => []

/-- R94: two sextets (12 bits) to three nibbles. -/
def groupsB64Hex : List Byte → List Byte
  | a :: b :: q =>
    let v : BitVec 12 := sextet a ++ sextet b
    symAt v 8 4 :: symAt v 4 4 :: symAt v 0 4 :: groupsB64Hex q
  | _ => []

/-- R95: two nibbles to one byte, high nibble first. -/
def groupsHexRaw : List Byte → List Byte
  | a :: b :: q => (nibble a ++ nibble b : BitVec 8) :: groupsHexRaw q
  | _ => []

/-- R95: one byte to two nibbles, high nibble first. -/
def groupsRawHex : List Byte → List Byte
  | a :: q => symAt a 4 4 :: symAt a 0 4 :: groupsRawHex q
  | [] => []

/-- R96: how many trailing sentinels count as padding, 0 to 2. -/
def trailingPad (q : List Byte) : Nat :=
  let n := q.length
  if 4 ≤ n ∧ q.getD (n - 1) 0 = 255 then (if q.getD (n - 2) 0 = 255 then 2 else 1) else 0

/-- R96: four sextets (24 bits) to three bytes. -/
def groupB64Raw (a b c d : Byte) : List Byte :=
  let v : BitVec 24 := sextet a ++ sextet b ++ sextet c ++ sextet d
  [symAt v 16 8, symAt v 8 8, symAt v 0 8]

/-- R96: the last group of a B64 operand with `p` padding sentinels; non-zero pad bits are refused. -/
def lastGroupB64Raw (p : Nat) (a b c d : Byte) : Except Code (List Byte) :=
  match p with
  | 0 => .ok (groupB64Raw a b c d)
  | 1 =>
    let v : BitVec 18 := sextet a ++ sextet b ++ sextet c
    if v.extractLsb' 0 2 ≠ 0 then .error .paddingOperand else .ok [symAt v 10 8, symAt v 2 8]
  | _ =>
    let v : BitVec 12 := sextet a ++ sextet b
    if v.extractLsb' 0 4 ≠ 0 then .error .paddingOperand else .ok [symAt v 4 8]

/-- R96: the groups of a B64 operand whose length is a multiple of 4. -/
def groupsB64Raw (p : Nat) : List Byte → Except Code (List Byte)
  | [a, b, c, d] => lastGroupB64Raw p a b c d
  | a :: b :: c :: d :: q =>
    match groupsB64Raw p q with
    | .ok r => .ok (groupB64Raw a b c d ++ r)
    | .error e => .error e
  | _ => .ok []

/-- R96: three bytes (24 bits) to four sextets; a last group of two bytes or one takes one or two sentinels. -/
def groupsRawB64 : List Byte → List Byte
  | a :: b :: c :: q =>
    let v : BitVec 24 := a ++ b ++ c
    symAt v 18 6 :: symAt v 12 6 :: symAt v 6 6 :: symAt v 0 6 :: groupsRawB64 q
  | [a, b] =>
    let v : BitVec 18 := a ++ b ++ 0#2
    [symAt v 12 6, symAt v 6 6, symAt v 0 6, 255]
  | [a] =>
    let v : BitVec 12 := a ++ 0#4
    [symAt v 6 6, symAt v 0 6, 255, 255]
  | [] => []

/-- `Pack(HEX, B64, q)` (R94). -/
def packHexB64 (q : List Byte) : Except Code (List Byte) :=
  if q.length % 3 ≠ 0 then .error .misalignedEncoding else .ok (groupsHexB64 q)

/-- `Pack(B64, HEX, q)` (R94). -/
def packB64Hex (q : List Byte) : Except Code (List Byte) :=
  if q.length % 2 ≠ 0 then .error .misalignedEncoding
  else if 255 ∈ q then .error .paddingOperand
  else .ok (groupsB64Hex q)

/-- `Pack(HEX, RAW, q)` (R95). -/
def packHexRaw (q : List Byte) : Except Code (List Byte) :=
  if q.length % 2 ≠ 0 then .error .misalignedEncoding else .ok (groupsHexRaw q)

/-- `Pack(RAW, HEX, q)` (R95). -/
def packRawHex (q : List Byte) : Except Code (List Byte) := .ok (groupsRawHex q)

/-- `Pack(B64, RAW, q)` (R96). -/
def packB64Raw (q : List Byte) : Except Code (List Byte) :=
  if q.length % 4 ≠ 0 then .error .misalignedEncoding
  else if 255 ∈ q.take (q.length - trailingPad q) then .error .paddingOperand
  else groupsB64Raw (trailingPad q) q

/-- `Pack(RAW, B64, q)` (R96). -/
def packRawB64 (q : List Byte) : Except Code (List Byte) := .ok (groupsRawB64 q)

/-- The conversion of R93 from encoding `f` to encoding `t`: the same symbols where they are one encoding, else the
packing of the pair. TEXT is no Storage encoding (R90). -/
def pack (f t : Enc) (q : List Byte) : Except Code (List Byte) :=
  match f, t with
  | .hex, .hex => .ok q
  | .hex, .b64 => packHexB64 q
  | .hex, .raw => packHexRaw q
  | .b64, .hex => packB64Hex q
  | .b64, .b64 => .ok q
  | .b64, .raw => packB64Raw q
  | .raw, .hex => packRawHex q
  | .raw, .b64 => packRawB64 q
  | .raw, .raw => .ok q
  | .text, _ => .error .encodingMismatch
  | _, .text => .error .encodingMismatch

/-! ## XOR and Hamming distance (R108 to R110) -/

/-- `a[i] ^ b[i mod len(b)]` for every i < len(a) (R108). -/
def xorCyclic (a b : List Byte) : List Byte := a.mapIdx fun i x => x ^^^ b.getD (i % b.length) 0

/-- The number of 1 bits of a byte (R6). -/
def popcount (v : Byte) : Nat := (List.range 8).countP fun k => v.getLsbD k

/-- The meaningful bits of a symbol (R110). -/
def hammMask (e : Enc) : Byte :=
  match e with
  | .hex => 0x0F
  | .b64 => 0x3F
  | .raw => 0xFF
  | .text => 0xFF

/-- The sum of R110 over two sequences of one length. -/
def hammSum (m : Byte) (a b : List Byte) : Nat := (List.zipWith (fun x y => popcount ((x ^^^ y) &&& m)) a b).sum

end Sys2Proof.Machine
end

