-- ==== Sys2Proof/Machine/Storage.lean ====
section
/-! DEFINITION. The Storage family: PARSE, RENDER, CONVERT, SLICE (40_storage.md). The checks stand in the order of R184. -/

namespace Sys2Proof.Machine

/-- PARSE sD, sA, enc (R92). E = 3 is illegal (R85 item 4); DEDUCED (log entry 13): so is the term with TEXT. -/
def execParse (d a : BufNum) (e : Enc) (s : State) : Result :=
  if e.nameable = false then raise .illegalCommand s
  else if (s.buf a).isText = false then raise .encodingMismatch s
  else withSyms "PARSE" a s fun t s =>
    match parseSyms e t with
    | none => raise .invalidSymbol s
    | some q => succeed (s.bufWrite d e q)

/-- RENDER sD, sA (R97). -/
def execRender (d a : BufNum) (s : State) : Result :=
  if (s.buf a).isStorage = false then raise .encodingMismatch s
  else withSyms "RENDER" a s fun q s => succeed (s.bufWrite d .text (q.map (symToChar (s.buf a).enc)))

/-- CONVERT sD, sA, enc (R93). E = 3 is illegal (R85 item 4); DEDUCED (log entry 13): so is the term with TEXT. -/
def execConvert (d a : BufNum) (e : Enc) (s : State) : Result :=
  if e.nameable = false then raise .illegalCommand s
  else if (s.buf a).isStorage = false then raise .encodingMismatch s
  else withSyms "CONVERT" a s fun q s =>
    match pack (s.buf a).enc e q with
    | .error c => raise c s
    | .ok r => if r.length > Config.cap then raise .capacityExceeded s else succeed (s.bufWrite d e r)

/-- SLICE sD, sA, with start ARG0 and end ARG1 (R98). DEDUCED (log entry 15): `Syms(A)` reads every slot of A. -/
def execSlice (d a : BufNum) (s : State) : Result :=
  if (s.buf a).isStorage = false then raise .encodingMismatch s
  else if s.arg0Nat > s.arg1Nat ∨ s.arg0Nat > (s.buf a).len ∨ s.arg1Nat > (s.buf a).len then
    raise .indexOutOfRange s
  else withSyms "SLICE" a s fun q s =>
    succeed (s.bufWrite d (s.buf a).enc ((q.take s.arg1Nat).drop s.arg0Nat))

end Sys2Proof.Machine
end

