-- ==== Sys2Proof/Machine/System.lean ====
section
/-! DEFINITION. NOP (44_system.md section 3) and TBLRD (43_aes_tables.md section 4). -/

namespace Sys2Proof.Machine

/-- NOP (R163). -/
def execNop (s : State) : Result := succeed s

/-- TBLRD, with entry index ARG0 and table number ARG1 (R155). -/
def execTblrd (s : State) : Result :=
  match tableEntry s.arg1Nat s.arg0Nat with
  | none => raise .indexOutOfRange s
  | some v => succeed { s with result := v.setWidth 32 }

end Sys2Proof.Machine
end

