-- ==== Sys2Proof/Machine/XorHamming.lean ====
section
/-! DEFINITION. The XOR and Hamming-distance family: XOR, HAMM (41_xor_hamming.md). The checks stand in the order of
R184. -/

namespace Sys2Proof.Machine

/-- R108, R110: A and B are Storage operands of one encoding. -/
def sameStorage (s : State) (a b : BufNum) : Bool :=
  (s.buf a).isStorage && (s.buf b).isStorage && ((s.buf a).enc == (s.buf b).enc)

/-- XOR sD, sA, sB (R108), with the check of R109 on B64 results. -/
def execXor (d a b : BufNum) (s : State) : Result :=
  if sameStorage s a b = false then raise .encodingMismatch s
  else withSyms "XOR" a s fun qa s => withSyms "XOR" b s fun qb s =>
    if qa.length = 0 ∨ qb.length = 0 then raise .emptyOperand s
    else if qa.length ≠ qb.length ∧ qa.length % qb.length ≠ 0 then raise .lengthMismatch s
    else if (s.buf a).enc = .b64 ∧ (xorCyclic qa qb).all (validSym .b64) = false then raise .paddingOperand s
    else succeed (s.bufWrite d (s.buf a).enc (xorCyclic qa qb))

/-- HAMM sA, sB (R110): the result goes to RESULT. -/
def execHamm (a b : BufNum) (s : State) : Result :=
  if sameStorage s a b = false then raise .encodingMismatch s
  else if (s.buf a).len ≠ (s.buf b).len then raise .lengthMismatch s
  else withSyms "HAMM" a s fun qa s => withSyms "HAMM" b s fun qb s =>
    succeed { s with result := BitVec.ofNat 32 (hammSum (hammMask (s.buf a).enc) qa qb) }

end Sys2Proof.Machine
end

