-- ==== Sys2Proof/Machine/Dispatch.lean ====
section
/-! DEFINITION. The dispatch of the ENGINE step on a decoded command: one arm per constructor (R83, R160). -/

namespace Sys2Proof.Machine

def exec (i : Instr) (s : State) : Host.Outcome State Fault Refusal :=
  match i with
  | .nop => Sys2Proof.Machine.execNop s
  | .parse d a e => Sys2Proof.Machine.execParse d a e s
  | .render d a => Sys2Proof.Machine.execRender d a s
  | .convert d a e => Sys2Proof.Machine.execConvert d a e s
  | .slice d a => Sys2Proof.Machine.execSlice d a s
  | .xor d a b => Sys2Proof.Machine.execXor d a b s
  | .hamm a b => Sys2Proof.Machine.execHamm a b s
  | .keyexp a => Sys2Proof.Machine.execKeyexp a s
  | .dececb d a b => Sys2Proof.Machine.execDececb d a b s
  | .stld a => Sys2Proof.Machine.execStld a s
  | .stst d => Sys2Proof.Machine.execStst d s
  | .ark => Sys2Proof.Machine.execArk s
  | .isr => Sys2Proof.Machine.execIsr s
  | .isb => Sys2Proof.Machine.execIsb s
  | .imc => Sys2Proof.Machine.execImc s
  | .decblk => Sys2Proof.Machine.execDecblk s
  | .rkrd d => Sys2Proof.Machine.execRkrd d s
  | .tblrd => Sys2Proof.Machine.execTblrd s

end Sys2Proof.Machine
end

