-- ==== Sys2Proof/Machine/Engine.lean ====
section
/-! DEFINITION. The ENGINE step (R160): it decodes CMD and runs the command. -/

namespace Sys2Proof.Machine

/-- The ENGINE step where BUSY = 1 (R160): an illegal word completes with IllegalCommand (R183), a legal one runs. -/
def engineStep (s : State) : Result :=
  match decode s.cmd with
  | .error _ => raise .illegalCommand s
  | .ok i => exec i s

/-- The ENGINE's turn: a step is enabled exactly when BUSY = 1 (R158). Else the block is idle and holds all state
(R194). -/
def engineTurn (s : State) : Result := if s.busy then engineStep s else .next s

end Sys2Proof.Machine
end

