-- ==== Sys2Proof/Machine/Step.lean ====
section
/-! DEFINITION. One step of a run (R158): the next event of the serial order, or the ENGINE's turn where no event is left
(R64, weak fairness). -/

namespace Sys2Proof.Machine

/-- The state with the event at hand taken off the schedule. -/
def State.advance (s : State) : State := { s with schedule := s.schedule.tail }

/-- One step of the run. Log entry 6. -/
def step (s : State) : Host.Outcome State Fault Refusal :=
  match s.schedule with
  | [] => engineTurn s
  | .engine :: _ => engineTurn s.advance
  | .read offset :: _ => hostRead offset s.advance
  | .write offset v :: _ => .next (hostWrite offset v s.advance)
  | .reset :: _ => .next s.advance.resetBlock

/-- `s` with the command word just accepted (R159) and the ENGINE to move next. Where no event is scheduled the ENGINE
moves next as it is; else its turn is put before the events that wait. Log entry 10. -/
def State.withFetchWord (s : State) (nbits w : Nat) : State :=
  { s.accept (tableWord nbits w) with
    schedule := match s.schedule with
      | [] => []
      | e :: es => .engine :: e :: es }

end Sys2Proof.Machine
end

