-- ==== Sys2Proof/Machine/Observation.lean ====
section
/-! DEFINITION. The end of a run of a host script and what is observed there (R169). -/

namespace Sys2Proof.Machine

/-- What R169 observes of one buffer: its tag, its length and its first len symbols. A slot below len that is undefined
(R19) shows as none: what it holds is not part of the observation. -/
structure BufferValue where
  enc : Enc
  len : Nat
  symbols : List (Option Byte)
  deriving DecidableEq, Repr

/-- The tuple of R169. -/
structure Observation where
  /-- S[0..7]. -/
  buffers : Vector BufferValue 8
  st : Block
  /-- RK if KSV = 1. -/
  rk : Option KeyTable
  ksv : Bool
  result : Word
  cmd : Word
  status : Word
  deriving DecidableEq, Repr

/-- A buffer as R169 observes it: slots at index len and above are left out (R17). -/
def Buffer.value (b : Buffer) : BufferValue :=
  { enc := b.enc, len := b.len, symbols := (List.range b.len).map fun i => b.sym.read i }

/-- The observation of R169. CTRL.IE, ARG0, ARG1, BSEL, BIDX and the model's own fields are no part of it. -/
def State.observe (s : State) : Observation where
  buffers := s.bufs.map Buffer.value
  st := s.st
  rk := if s.ksv then some s.rk else none
  ksv := s.ksv
  result := s.result
  cmd := s.cmd
  status := s.statusWord

/-- The run is over (R169): the script's last statement has completed, so no event is left, and BUSY = 0. -/
def State.runOver (s : State) : Bool := s.schedule.isEmpty && !s.busy

/-- The observation at the end of the run from `s`, where it ends within `k` steps; none where it does not or where a step
stops. -/
def endOfRun : Nat → State → Option Observation
  | 0, s => if s.runOver then some s.observe else none
  | k + 1, s =>
    if s.runOver then some s.observe
    else
      match step s with
      | .next t => endOfRun k t
      | .fault _ => none
      | .refused _ => none

end Sys2Proof.Machine
end

