-- ==== Sys2Proof/Machine/Script.lean ====
section
/-! DEFINITION. The assembler syntax of a command (R88) and the statements of a host script as the host accesses they
expand to (R89). A script is a list of events, to stand in `State.schedule`. -/

namespace Sys2Proof.Machine

/-! ## Assembler syntax (R88) -/

/-- The mnemonic of a command, as R88 writes it. -/
def mnemonicOf : Instr → String
  | .nop => "NOP"
  | .parse _ _ _ => "PARSE"
  | .render _ _ => "RENDER"
  | .convert _ _ _ => "CONVERT"
  | .slice _ _ => "SLICE"
  | .xor _ _ _ => "XOR"
  | .hamm _ _ => "HAMM"
  | .keyexp _ => "KEYEXP"
  | .dececb _ _ _ => "DECECB"
  | .stld _ => "STLD"
  | .stst _ => "STST"
  | .ark => "ARK"
  | .isr => "ISR"
  | .isb => "ISB"
  | .imc => "IMC"
  | .decblk => "DECBLK"
  | .rkrd _ => "RKRD"
  | .tblrd => "TBLRD"

/-- `s0` to `s7` (R88). -/
def bufName (b : BufNum) : String :=
  match b.val with
  | 0 => "s0"
  | 1 => "s1"
  | 2 => "s2"
  | 3 => "s3"
  | 4 => "s4"
  | 5 => "s5"
  | 6 => "s6"
  | _ => "s7"

/-- `hex`, `b64` or `raw` (R88); TEXT has no name in a command. -/
def encName : Enc → String
  | .hex => "hex"
  | .b64 => "b64"
  | .raw => "raw"
  | .text => ""

/-- The used fields of a command in the order D, A, B, E (R88). -/
def operandNames : Instr → List String
  | .nop => []
  | .parse d a e => [bufName d, bufName a, encName e]
  | .render d a => [bufName d, bufName a]
  | .convert d a e => [bufName d, bufName a, encName e]
  | .slice d a => [bufName d, bufName a]
  | .xor d a b => [bufName d, bufName a, bufName b]
  | .hamm a b => [bufName a, bufName b]
  | .keyexp a => [bufName a]
  | .dececb d a b => [bufName d, bufName a, bufName b]
  | .stld a => [bufName a]
  | .stst d => [bufName d]
  | .ark => []
  | .isr => []
  | .isb => []
  | .imc => []
  | .decblk => []
  | .rkrd d => [bufName d]
  | .tblrd => []

/-- A command as R88 writes it, split into its mnemonic and its fields. -/
def asmTokens (i : Instr) : List String := mnemonicOf i :: operandNames i

/-- Lower case, for R88's "case-insensitive" of mnemonics and encoding names. -/
def lower (s : String) : List Char := s.toList.map Char.toLower

/-- A buffer name. R88 writes `s0` to `s7` and does not say whether letter case counts there. DESIGN CHOICE (log entry 17):
`S0` to `S7` are read as the same names. -/
def readBufName (s : String) : Option BufNum :=
  match lower s with
  | ['s', '0'] => some 0
  | ['s', '1'] => some 1
  | ['s', '2'] => some 2
  | ['s', '3'] => some 3
  | ['s', '4'] => some 4
  | ['s', '5'] => some 5
  | ['s', '6'] => some 6
  | ['s', '7'] => some 7
  | _ => none

/-- An encoding name. -/
def readEncName (s : String) : Option Enc :=
  match lower s with
  | ['h', 'e', 'x'] => some .hex
  | ['b', '6', '4'] => some .b64
  | ['r', 'a', 'w'] => some .raw
  | _ => none

/-- The command without operands of that name. -/
def readPlain (m : List Char) : Option Instr :=
  match m with
  | ['n', 'o', 'p'] => some .nop
  | ['a', 'r', 'k'] => some .ark
  | ['i', 's', 'r'] => some .isr
  | ['i', 's', 'b'] => some .isb
  | ['i', 'm', 'c'] => some .imc
  | ['d', 'e', 'c', 'b', 'l', 'k'] => some .decblk
  | ['t', 'b', 'l', 'r', 'd'] => some .tblrd
  | _ => none

/-- The command of that name with one buffer. -/
def readOne (m : List Char) (x : BufNum) : Option Instr :=
  match m with
  | ['k', 'e', 'y', 'e', 'x', 'p'] => some (.keyexp x)
  | ['s', 't', 'l', 'd'] => some (.stld x)
  | ['s', 't', 's', 't'] => some (.stst x)
  | ['r', 'k', 'r', 'd'] => some (.rkrd x)
  | _ => none

/-- The command of that name with two buffers. -/
def readTwo (m : List Char) (x y : BufNum) : Option Instr :=
  match m with
  | ['r', 'e', 'n', 'd', 'e', 'r'] => some (.render x y)
  | ['s', 'l', 'i', 'c', 'e'] => some (.slice x y)
  | ['h', 'a', 'm', 'm'] => some (.hamm x y)
  | _ => none

/-- The command of that name with three buffers. -/
def readThree (m : List Char) (x y z : BufNum) : Option Instr :=
  match m with
  | ['x', 'o', 'r'] => some (.xor x y z)
  | ['d', 'e', 'c', 'e', 'c', 'b'] => some (.dececb x y z)
  | _ => none

/-- The command of that name with two buffers and an encoding. -/
def readCoded (m : List Char) (x y : BufNum) (e : Enc) : Option Instr :=
  match m with
  | ['p', 'a', 'r', 's', 'e'] => some (.parse x y e)
  | ['c', 'o', 'n', 'v', 'e', 'r', 't'] => some (.convert x y e)
  | _ => none

/-- The command that a mnemonic and its fields stand for (R88), or none. -/
def readAsm (tokens : List String) : Option Instr :=
  match tokens with
  | [m] => readPlain (lower m)
  | [m, x] =>
    match readBufName x with
    | some x => readOne (lower m) x
    | none => none
  | [m, x, y] =>
    match readBufName x, readBufName y with
    | some x, some y => readTwo (lower m) x y
    | _, _ => none
  | [m, x, y, z] =>
    match readBufName x, readBufName y, readBufName z, readEncName z with
    | some x, some y, some z, _ => readThree (lower m) x y z
    | some x, some y, none, some e => readCoded (lower m) x y e
    | _, _, _, _ => none
  | _ => none

/-! ## Host-script statements (R89) -/

/-- The byte offset of a register (R44); an unmapped register stands at 0x34, the first such offset. -/
def offsetOf : Reg → BitVec 8
  | .id => 0x00
  | .ctrl => 0x04
  | .status => 0x08
  | .cmd => 0x0C
  | .arg0 => 0x10
  | .arg1 => 0x14
  | .result => 0x18
  | .bsel => 0x1C
  | .bidx => 0x20
  | .bdata => 0x24
  | .blen => 0x28
  | .benc => 0x2C
  | .capr => 0x30
  | .unmapped => 0x34

/-- `WR REG, v`. -/
def wr (r : Reg) (v : Word) : Event := .write (offsetOf r) v

/-- `RD REG`. -/
def rd (r : Reg) : Event := .read (offsetOf r)

/-- `CMD cmd`. -/
def scriptCmd (i : Instr) : List Event := [wr .cmd (encode i)]

/-- `WAIT` in the runs where the ENGINE step comes after `polls` reads of STATUS that return BUSY = 1 (R158 leaves the
number open). DESIGN CHOICE, log entry 17. -/
def scriptWait (polls : Nat) : List Event := List.replicate polls (rd .status) ++ [.engine, rd .status]

/-- `RUN cmd`. -/
def scriptRun (i : Instr) (polls : Nat) : List Event := scriptCmd i ++ scriptWait polls

/-- `LOAD sN, tag, bytes`. -/
def scriptLoad (b : BufNum) (tag : Enc) (bytes : List Byte) : List Event :=
  [wr .bsel (BitVec.ofNat 32 b.val), wr .benc (tag.code.setWidth 32), wr .bidx 0]
    ++ bytes.map (fun v => wr .bdata (v.setWidth 32))
    ++ [wr .blen (BitVec.ofNat 32 bytes.length)]

/-- `FETCH sN` for a buffer whose BLEN reads `len`. -/
def scriptFetch (b : BufNum) (len : Nat) : List Event :=
  [wr .bsel (BitVec.ofNat 32 b.val), wr .bidx 0, rd .blen] ++ List.replicate len (rd .bdata)

/-- `SLICEI sD, sA, i, j`. -/
def scriptSlicei (d a : BufNum) (i j : Word) (polls : Nat) : List Event :=
  [wr .arg0 i, wr .arg1 j] ++ scriptRun (.slice d a) polls

/-- `ARKI n`. -/
def scriptArki (n : Word) (polls : Nat) : List Event := [wr .arg0 n] ++ scriptRun .ark polls

/-- `RKRDI sD, n`. -/
def scriptRkrdi (d : BufNum) (n : Word) (polls : Nat) : List Event := [wr .arg0 n] ++ scriptRun (.rkrd d) polls

/-- `TBLRDI t, i`. -/
def scriptTblrdi (t i : Word) (polls : Nat) : List Event := [wr .arg1 t, wr .arg0 i] ++ scriptRun .tblrd polls

end Sys2Proof.Machine
end

