-- ==== Sys2Proof/Safety.lean ====
section
/-! DEFINITION. The terms the statements use: what a step leaves unchanged, the invariants, the observation, and the
wording of the rules that is not the machine's own. Nothing of the machine reads this file. -/

namespace Sys2Proof.Machine

/-! ## Whose turn it is -/

/-- The ENGINE moves next: no event is left, or the next event is the ENGINE's turn. -/
def State.engineNext (s : State) : Prop := s.schedule.head? = none ∨ s.schedule.head? = some .engine

/-- The next event is the HOST's read of byte offset `o`. -/
def State.readNext (s : State) (o : BitVec 8) : Prop := s.schedule.head? = some (.read o)

/-- The next event is the HOST's write of `v` to byte offset `o`. -/
def State.writeNext (s : State) (o : BitVec 8) (v : Word) : Prop := s.schedule.head? = some (.write o v)

/-- The next event is a hardware reset. -/
def State.resetNext (s : State) : Prop := s.schedule.head? = some .reset

/-- The next event is a soft reset: a write to CTRL (0x04) with bit 1 = 1 (R25, R201). -/
def State.softResetNext (s : State) : Prop :=
  ∃ o v, s.writeNext o v ∧ o.extractLsb' 2 6 = 0x01#6 ∧ v.getLsbD 1 = true

/-! ## The used-field columns of R83, and the illegal words of R85 -/

/-- The commands that use D, by opcode: PARSE, RENDER, CONVERT, SLICE, XOR, DECECB, STST, RKRD. -/
def usesD (op : Nat) : Prop := op ∈ [0x01, 0x02, 0x03, 0x04, 0x05, 0x08, 0x0A, 0x10]
/-- The commands that use A: PARSE, RENDER, CONVERT, SLICE, XOR, HAMM, KEYEXP, DECECB, STLD. -/
def usesA (op : Nat) : Prop := op ∈ [0x01, 0x02, 0x03, 0x04, 0x05, 0x06, 0x07, 0x08, 0x09]
/-- The commands that use B: XOR, HAMM, DECECB. -/
def usesB (op : Nat) : Prop := op ∈ [0x05, 0x06, 0x08]
/-- The commands that use E: PARSE, CONVERT. -/
def usesE (op : Nat) : Prop := op ∈ [0x01, 0x03]

/-- The four conditions of R85, on the bits of the word. -/
def illegalWord (w : Word) : Prop :=
  let op := (w.extractLsb' 0 8).toNat
  op ≥ 0x12
    ∨ w.extractLsb' 19 13 ≠ 0
    ∨ (¬usesD op ∧ w.extractLsb' 8 3 ≠ 0) ∨ (¬usesA op ∧ w.extractLsb' 11 3 ≠ 0)
    ∨ (¬usesB op ∧ w.extractLsb' 14 3 ≠ 0) ∨ (¬usesE op ∧ w.extractLsb' 17 2 ≠ 0)
    ∨ (usesE op ∧ w.extractLsb' 17 2 = 3)

/-! ## What a command writes -/

/-- The registers no command writes (R29, R30, R33, R34, R37, R38), and the two fields of the HOST's side. -/
structure RegistersKept (s t : State) : Prop where
  ie : t.ie = s.ie
  ovr : t.ovr = s.ovr
  perr : t.perr = s.perr
  cmd : t.cmd = s.cmd
  arg0 : t.arg0 = s.arg0
  arg1 : t.arg1 = s.arg1
  bsel : t.bsel = s.bsel
  bidx : t.bidx = s.bidx
  schedule : t.schedule = s.schedule
  rdata : t.rdata = s.rdata

/-- A completion with code NONE (R160), and the registers no command writes. -/
structure Succeeded (s t : State) : Prop where
  errcode : t.errcode = 0
  done : t.done = true
  busy : t.busy = false
  kept : RegistersKept s t

/-- The state after a command that completes with an error code, where it has drawn `d` free values by then (R182):
ERRCODE, DONE and BUSY, and nothing else of the block. -/
def State.failed (s : State) (code : BitVec 8) (d : Nat) : State :=
  { s with errcode := code, done := true, busy := false, draws := d }

/-- Buffer `d` was written with tag `e` and symbols `q`, and nothing else of the buffers (R8): its slots at len(q) and
above, and every slot of every other buffer, read as before. -/
structure BufferWritten (s t : State) (d : BufNum) (e : Enc) (q : List Byte) : Prop where
  enc : (t.buf d).enc = e
  len : (t.buf d).len = q.length
  written : ∀ i, i < q.length → t.slot d i = q[i]?
  above : ∀ i, q.length ≤ i → t.slot d i = s.slot d i
  other : ∀ b, b ≠ d → t.buf b = s.buf b

/-- Every buffer is as before, every slot of it included. -/
def BuffersKept (s t : State) : Prop := ∀ b, t.buf b = s.buf b

/-- RK and KSV are as before. -/
structure KeysKept (s t : State) : Prop where
  rk : t.rk = s.rk
  ksv : t.ksv = s.ksv

/-- The command's effect on the state is to write buffer `d` (tag `e`, symbols `q`), having drawn `n` values by then. -/
structure WroteBuffer (s t : State) (d : BufNum) (e : Enc) (q : List Byte) (n : Nat) : Prop where
  completed : Succeeded s t
  buffer : BufferWritten s t d e q
  st : t.st = s.st
  keys : KeysKept s t
  result : t.result = s.result
  draws : t.draws = n

/-- The command's effect on the state is to write ST, having drawn `n` values by then. -/
structure WroteSt (s t : State) (n : Nat) : Prop where
  completed : Succeeded s t
  buffers : BuffersKept s t
  keys : KeysKept s t
  result : t.result = s.result
  draws : t.draws = n

/-- The command's effect on the state is to write RESULT, having drawn `n` values by then. -/
structure WroteResult (s t : State) (v : Word) (n : Nat) : Prop where
  completed : Succeeded s t
  buffers : BuffersKept s t
  st : t.st = s.st
  keys : KeysKept s t
  result : t.result = v
  draws : t.draws = n

/-- `Syms(b)` read after `d` draws is `q`, with `d'` draws then (R8, R57). -/
def State.Reads (s : State) (b : BufNum) (d : Nat) (q : List Byte) (d' : Nat) : Prop :=
  (s.buf b).syms d = .ok (q, d')

/-- The buffer a command writes, by its D field (R83). -/
def destOf : Instr → Option BufNum
  | .nop => none
  | .parse d _ _ => some d
  | .render d _ => some d
  | .convert d _ _ => some d
  | .slice d _ => some d
  | .xor d _ _ => some d
  | .hamm _ _ => none
  | .keyexp _ => none
  | .dececb d _ _ => some d
  | .stld _ => none
  | .stst d => some d
  | .ark => none
  | .isr => none
  | .isb => none
  | .imc => none
  | .decblk => none
  | .rkrd d => some d
  | .tblrd => none

/-- The buffers a command reads, by its A and B fields (R83). -/
def sourcesOf : Instr → List BufNum
  | .nop => []
  | .parse _ a _ => [a]
  | .render _ a => [a]
  | .convert _ a _ => [a]
  | .slice _ a => [a]
  | .xor _ a b => [a, b]
  | .hamm a b => [a, b]
  | .keyexp a => [a]
  | .dececb _ a b => [a, b]
  | .stld a => [a]
  | .stst _ => []
  | .ark => []
  | .isr => []
  | .isb => []
  | .imc => []
  | .decblk => []
  | .rkrd _ => []
  | .tblrd => []

/-- The commands that write RESULT (R35). -/
def writesResult (i : Instr) : Prop := i = .tblrd ∨ ∃ a b, i = .hamm a b

/-- The commands that write ST (R20). -/
def writesSt (i : Instr) : Prop :=
  i = .ark ∨ i = .isr ∨ i = .isb ∨ i = .imc ∨ i = .decblk ∨ ∃ a, i = .stld a

/-- The commands that write RK and KSV (R21, R22). -/
def writesKeys (i : Instr) : Prop := (∃ a, i = .keyexp a) ∨ ∃ d a b, i = .dececb d a b

/-! ## Reset (R46) -/

/-- The values R46 gives. RK is left out: it is unspecified after reset. -/
structure HasResetValues (t : State) : Prop where
  ie : t.ie = false
  busy : t.busy = false
  done : t.done = false
  ovr : t.ovr = false
  perr : t.perr = false
  errcode : t.errcode = 0
  ksv : t.ksv = false
  cmd : t.cmd = 0
  arg0 : t.arg0 = 0
  arg1 : t.arg1 = 0
  result : t.result = 0
  bsel : t.bsel = 0
  bidx : t.bidx = 0
  enc : ∀ b, (t.buf b).enc = .raw
  len : ∀ b, (t.buf b).len = 0
  undefinedSlots : ∀ b i, t.slot b i = none
  st : ∀ i, t.st.get i = 0
  irq : t.irq = false

/-! ## Invariants -/

/-- R15, R17: every buffer's length is at most CAP, its array is in canonical form and lists slots below CAP alone. -/
def BuffersFit (s : State) : Prop :=
  ∀ b, (s.buf b).sym.wf ∧ (s.buf b).len ≤ Config.cap ∧ ∀ c ∈ (s.buf b).sym, c.1 < Config.cap

/-- R18: every symbol below len that is defined is valid for the tag (R16); a HEX or B64 buffer, which no host access
can lengthen (R55), has every slot below len defined. -/
def SymbolsValid (s : State) : Prop :=
  ∀ b i, i < (s.buf b).len →
    (∀ v, s.slot b i = some v → validSym (s.buf b).enc v = true)
      ∧ ((s.buf b).enc = .hex ∨ (s.buf b).enc = .b64 → s.slot b i ≠ none)

/-- R22: where KSV = 1, RK is the expansion of some key. -/
def KeysValid (s : State) : Prop := s.ksv = true → ∃ k, s.rk = keyExpansion k

/-- R180: ERRCODE is one of the codes 0 to 12. R159: while a command is in progress, DONE and ERRCODE are 0. -/
def StatusLegal (s : State) : Prop :=
  s.errcode.toNat ≤ 12 ∧ (s.busy = true → s.done = false ∧ s.errcode = 0)

/-! ## Observation (R17, R169) -/

/-- The components of the tuple of R169, one by one, agree. -/
structure SameObservation (s t : State) : Prop where
  enc : ∀ b, (s.buf b).enc = (t.buf b).enc
  len : ∀ b, (s.buf b).len = (t.buf b).len
  symbols : ∀ b i, i < (s.buf b).len → s.slot b i = t.slot b i
  st : s.st = t.st
  rk : s.ksv = true → s.rk = t.rk
  ksv : s.ksv = t.ksv
  result : s.result = t.result
  cmd : s.cmd = t.cmd
  status : s.statusWord = t.statusWord

/-- Two states that differ at most in slots at index len and above (U14) and in RK while KSV = 0 (U4). This is finer than
R169's tuple (`SameObservation`): the registers and model fields that the tuple leaves out, but a later step reads, agree
too. -/
structure SameValues (s t : State) : Prop where
  ie : s.ie = t.ie
  busy : s.busy = t.busy
  done : s.done = t.done
  ovr : s.ovr = t.ovr
  perr : s.perr = t.perr
  errcode : s.errcode = t.errcode
  cmd : s.cmd = t.cmd
  arg0 : s.arg0 = t.arg0
  arg1 : s.arg1 = t.arg1
  result : s.result = t.result
  bsel : s.bsel = t.bsel
  bidx : s.bidx = t.bidx
  enc : ∀ b, (s.buf b).enc = (t.buf b).enc
  len : ∀ b, (s.buf b).len = (t.buf b).len
  symbols : ∀ b i, i < (s.buf b).len → s.slot b i = t.slot b i
  st : s.st = t.st
  ksv : s.ksv = t.ksv
  rk : s.ksv = true → s.rk = t.rk
  schedule : s.schedule = t.schedule
  rdata : s.rdata = t.rdata
  draws : s.draws = t.draws

/-- Two answers that agree: next states with the same values, or the same fault. -/
inductive SameAnswer : Result → Result → Prop
  | next (s t : State) (h : SameValues s t) : SameAnswer (.next s) (.next t)
  | fault (r : Fault) : SameAnswer (.fault r) (.fault r)

/-! ## Bits of a Storage value (R7, R59, R93) -/

/-- The `w` low bits of a symbol, most significant first. -/
def msbFirst (w : Nat) (v : Byte) : List Bool := (List.range w).map fun k => v.getLsbD (w - 1 - k)

/-- The bits a symbol carries: 4, 6 or 8, and none for a B64 sentinel. -/
def symBits (e : Enc) (v : Byte) : List Bool :=
  match e with
  | .hex => msbFirst 4 v
  | .b64 => if v = 255 then [] else msbFirst 6 v
  | .raw => msbFirst 8 v
  | .text => []

/-- The bit string of a symbol sequence, most-significant-first. -/
def bitString (e : Enc) (q : List Byte) : List Bool := q.flatMap (symBits e)

/-- The number of pad bits in the B64 form of `n` bytes (R96). -/
def padBits (n : Nat) : Nat := if n % 3 = 1 then 4 else if n % 3 = 2 then 2 else 0

/-! ## The conversion table of R93, as lengths and refusals -/

/-- The length constraint of R93: the input length is a multiple of this. -/
def convertUnit : Enc → Enc → Nat
  | .hex, .b64 => 3
  | .b64, .hex => 2
  | .hex, .raw => 2
  | .b64, .raw => 4
  | _, _ => 1

/-- How many of the last two symbols of a B64 operand count as padding (R96). -/
def sentinelCount (q : List Byte) : Nat :=
  if q[q.length - 1]? = some 255 ∧ 4 ≤ q.length then (if q[q.length - 2]? = some 255 then 2 else 1) else 0

/-- The refusals with PaddingOperand (R94, R96): a sentinel the pair cannot carry, or non-zero pad bits in the last data
sextet. -/
def paddingRefused (f t : Enc) (q : List Byte) : Prop :=
  match f, t with
  | .b64, .hex => 255 ∈ q
  | .b64, .raw =>
    (∃ i, i < q.length - sentinelCount q ∧ q[i]? = some 255)
      ∨ (sentinelCount q = 1 ∧ (q.getD (q.length - 2) 0).toNat % 4 ≠ 0)
      ∨ (sentinelCount q = 2 ∧ (q.getD (q.length - 3) 0).toNat % 16 ≠ 0)
  | _, _ => False

/-- The output length of R93. -/
def convertLength (f t : Enc) (q : List Byte) : Nat :=
  let n := q.length
  match f, t with
  | .hex, .b64 => 2 * n / 3
  | .b64, .hex => 3 * n / 2
  | .hex, .raw => n / 2
  | .raw, .hex => 2 * n
  | .b64, .raw => 3 * n / 4 - sentinelCount q
  | .raw, .b64 => 4 * ((n + 2) / 3)
  | _, _ => n

/-- The result of R108: `a[i] ^ b[i mod len(b)]`. -/
def xorResult (qa qb : List Byte) : List Byte :=
  (List.range qa.length).map fun i => qa.getD i 0 ^^^ qb.getD (i % qb.length) 0

/-- The meaningful bits of a symbol: HEX low 4, B64 low 6, RAW all 8 (R110). -/
def meaningfulBits (e : Enc) : Nat :=
  match e with
  | .hex => 4
  | .b64 => 6
  | .raw => 8
  | .text => 8

/-- The number of meaningful bits in which two symbols differ (R110). -/
def differingBits (e : Enc) (x y : Byte) : Nat :=
  ((List.range (meaningfulBits e)).filter fun k => x.getLsbD k != y.getLsbD k).length

/-- The distance of R110 over two sequences of one length. -/
def hammDistance (e : Enc) (qa qb : List Byte) : Nat :=
  ((List.range qa.length).map fun i => differingBits e (qa.getD i 0) (qb.getD i 0)).sum

/-- Every slot of buffer `b` below its length is defined. -/
def State.allDefined (s : State) (b : BufNum) : Prop := ∀ i, i < (s.buf b).len → s.slot b i ≠ none

/-- The number of undefined slots below `k`. -/
def undefinedBelow (b : Buffer) (k : Nat) : Nat := ((List.range k).filter fun j => (b.sym.read j).isNone).length

/-- R124 word by word: `w` starts with the key and each round key follows from the one before it. -/
def IsKeySchedule (key : Block) (w : KeyTable) : Prop :=
  w.get 0 = key ∧
    ∀ (i : Nat) (h : i + 1 < 11) (j : Fin 4),
      let p := w.get ⟨i, by omega⟩
      let r := w.get ⟨i + 1, h⟩
      (r.get ⟨j.val, by omega⟩ =
          p.get ⟨j.val, by omega⟩ ^^^ (sbox (p.get ⟨12 + (j.val + 1) % 4, by omega⟩)
            ^^^ (if j = 0 then (rcon (i + 1)).getD 0 else 0)))
        ∧ ∀ c : Fin 3, r.get ⟨4 * (c.val + 1) + j.val, by omega⟩
            = r.get ⟨4 * c.val + j.val, by omega⟩ ^^^ p.get ⟨4 * (c.val + 1) + j.val, by omega⟩

/-- R123 for one column, in the source's words: GF(2^8) products, not tables. -/
def IsInvMixColumn (c0 c1 c2 c3 t0 t1 t2 t3 : Byte) : Prop :=
  t0 = gfMul 14 c0 ^^^ gfMul 11 c1 ^^^ gfMul 13 c2 ^^^ gfMul 9 c3
    ∧ t1 = gfMul 9 c0 ^^^ gfMul 14 c1 ^^^ gfMul 11 c2 ^^^ gfMul 13 c3
    ∧ t2 = gfMul 13 c0 ^^^ gfMul 9 c1 ^^^ gfMul 14 c2 ^^^ gfMul 11 c3
    ∧ t3 = gfMul 11 c0 ^^^ gfMul 13 c1 ^^^ gfMul 9 c2 ^^^ gfMul 14 c3

/-- The index of row `r`, column `c` (R20). -/
def cell (r c : Fin 4) : Fin 16 := ⟨r.val + 4 * c.val, by omega⟩

/-! ## Sequences of commands -/

/-- Run commands one after another, each with ARG0 set to the number beside it, as the HOST's WR and RUN do (R89). -/
def runCommands : List (Word × Instr) → State → Result
  | [], s => .next s
  | (n, i) :: cs, s =>
    match exec i { s with arg0 := n } with
    | .next t => runCommands cs t
    | .fault r => .fault r
    | .refused r => .refused r

/-- The four commands of one of the nine rounds of R125, with the round key number. -/
def roundCommands (n : Word) : List (Word × Instr) := [(n, .isr), (n, .isb), (n, .ark), (n, .imc)]

/-- R125 command by command, as program P4 of 95_test_vectors.md runs it: ARK 10; nine rounds with keys 9 to 1; ISR, ISB
and ARK 0. -/
def cipherCommands : List (Word × Instr) :=
  (10, .ark) :: ([9, 8, 7, 6, 5, 4, 3, 2, 1].flatMap roundCommands ++ [(0, .isr), (0, .isb), (0, .ark)])

/-- `n` zero symbols. -/
def zeros (n : Nat) : List Byte := List.replicate n 0

end Sys2Proof.Machine
end

