-- ==== Sys2Proof/Certificates/Slice0/Obligations.lean ====
section
/-! DEFINITION. The statements for the provers. Each names the rule of spec/ it formalises. A statement that a log entry's
choice enters says so. -/

open Sys2Proof Sys2Proof.Machine

/-! ## Encoding -/

/-- R84, R85, R87: decoding the word of any well-formed command gives the command back, with every operand at every value
the encoding admits. -/
def Obligations.DecodeEncodeWellFormed : Prop :=
  ∀ i : Instr, i.wellFormed = true → decode (encode i) = .ok i

/-- R87: a word that decodes is the one word of its command, and the command is well formed. -/
def Obligations.LegalWordsHaveOneCommand : Prop :=
  ∀ (w : Word) (i : Instr), decode w = .ok i → i.wellFormed = true ∧ encode i = w

/-- R85, R183: the words the decoder refuses are those of R85's four conditions, and the ENGINE step of such a word
completes with IllegalCommand (9) and changes nothing else. -/
def Obligations.IllegalWordsCompleteWithCode9 : Prop :=
  (∀ w : Word, (∃ r, decode w = .error r) ↔ illegalWord w) ∧
    ∀ s : State, s.busy = true → s.engineNext → illegalWord s.cmd →
      step s = .next { s.advance with errcode := 9, done := true, busy := false }

/-- The 20 legal and the 10 illegal words written out in spec section 95 2.0 decode to the commands it gives, or are
refused. -/
def Obligations.DecodeReadsSpecWords : Prop :=
  (decode 0x00000000 = .ok .nop ∧ decode 0x00020101 = .ok (.parse 1 0 .b64) ∧ decode 0x00001302 = .ok (.render 3 2)
      ∧ decode 0x00020A03 = .ok (.convert 2 1 .b64) ∧ decode 0x00040003 = .ok (.convert 0 0 .raw)
      ∧ decode 0x00000104 = .ok (.slice 1 0) ∧ decode 0x00004205 = .ok (.xor 2 0 1)
      ∧ decode 0x0001FF05 = .ok (.xor 7 7 7) ∧ decode 0x00004006 = .ok (.hamm 0 1)
      ∧ decode 0x00000807 = .ok (.keyexp 1) ∧ decode 0x00004208 = .ok (.dececb 2 0 1)
      ∧ decode 0x00000009 = .ok (.stld 0) ∧ decode 0x0000050A = .ok (.stst 5) ∧ decode 0x0000000B = .ok .ark
      ∧ decode 0x0000000C = .ok .isr ∧ decode 0x0000000D = .ok .isb ∧ decode 0x0000000E = .ok .imc
      ∧ decode 0x0000000F = .ok .decblk ∧ decode 0x00000410 = .ok (.rkrd 4) ∧ decode 0x00000011 = .ok .tblrd)
    ∧ decode 0x00000012 = .error .reservedOpcode ∧ decode 0x000000FF = .error .reservedOpcode
    ∧ decode 0x00080000 = .error .reservedBits ∧ decode 0x80000005 = .error .reservedBits
    ∧ decode 0x00000100 = .error .unusedD ∧ decode 0x00060001 = .error .illegalEncoding
    ∧ decode 0x00004001 = .error .unusedB ∧ decode 0x00020005 = .error .unusedE
    ∧ decode 0x00000106 = .error .unusedD ∧ decode 0x0000080B = .error .unusedA

/-- R88: a command's mnemonic and used fields, in any letter case, read back as the command. The tokens are already split
at spaces and commas, and letter case does not count in buffer names: both are the model's choices (log entry 17). -/
def Obligations.AssemblerReadsWhatItWrites : Prop :=
  ∀ (i : Instr) (tokens : List String), i.wellFormed = true → tokens.map lower = (asmTokens i).map lower →
    readAsm tokens = some i

/-! ## The step, acceptance and the HOST's registers -/

/-- R158, R160: where BUSY = 1 and the ENGINE moves next, the step is `exec` of the command that CMD decodes to; where
BUSY = 0 the ENGINE's turn changes nothing. R169, R194: a run is over where no event is left and BUSY = 0, and the block
then holds all state. The event taken off the schedule is the model's own (log entry 6). -/
def Obligations.StepRunsDecodedCommand : Prop :=
  (∀ (s : State) (i : Instr), s.busy = true → s.engineNext → decode s.cmd = .ok i →
      step s = exec i { s with schedule := s.schedule.tail })
    ∧ (∀ s : State, s.busy = false → s.engineNext → step s = .next { s with schedule := s.schedule.tail })
    ∧ ∀ s : State, (s.runOver = true ↔ s.schedule = [] ∧ s.busy = false) ∧ (s.runOver = true → step s = .next s)

/-- R159: a write of CMD while BUSY = 0 is accepted whatever the word; while BUSY = 1 it is ignored and sets OVR. -/
def Obligations.CmdWriteAcceptsAnyWord : Prop :=
  ∀ (s : State) (o : BitVec 8) (v : Word), s.writeNext o v → o.extractLsb' 2 6 = 0x03#6 →
    (s.busy = false → step s = .next { s.advance with cmd := v, busy := true, done := false, errcode := 0 })
      ∧ (s.busy = true → step s = .next { s.advance with ovr := true })

/-- R58: every host access while BUSY = 1, register by register (the index is offset[7:2]). The model's choices: the
unspecified value of a refused read is a free value (log entry 4), and a write of a read-only register is one of R58's
writes of any other register (log entry 11). -/
def Obligations.AccessesWhileBusy : Prop :=
  ∀ (s : State) (o : BitVec 8) (v : Word), s.busy = true →
    (s.readNext o →
      ((o.extractLsb' 2 6).toNat ∈ [0x06, 0x09, 0x0A, 0x0B] →
          step s = .next { s.advance with
            rdata := some (Config.freeWord s.draws), draws := s.draws + 1, ovr := true })
        ∧ ((o.extractLsb' 2 6).toNat = 0x00 → step s = .next { s.advance with rdata := some 0x43504C01 })
        ∧ ((o.extractLsb' 2 6).toNat = 0x01 →
            step s = .next { s.advance with rdata := some (if s.ie = true then 1 else 0) })
        ∧ ((o.extractLsb' 2 6).toNat = 0x02 → step s = .next { s.advance with rdata := some s.statusWord })
        ∧ ((o.extractLsb' 2 6).toNat = 0x03 → step s = .next { s.advance with rdata := some s.cmd })
        ∧ ((o.extractLsb' 2 6).toNat = 0x04 → step s = .next { s.advance with rdata := some s.arg0 })
        ∧ ((o.extractLsb' 2 6).toNat = 0x05 → step s = .next { s.advance with rdata := some s.arg1 })
        ∧ ((o.extractLsb' 2 6).toNat = 0x07 →
            step s = .next { s.advance with rdata := some (BitVec.ofNat 32 s.bsel.toNat) })
        ∧ ((o.extractLsb' 2 6).toNat = 0x08 → step s = .next { s.advance with rdata := some s.bidx })
        ∧ ((o.extractLsb' 2 6).toNat = 0x0C →
            step s = .next { s.advance with rdata := some (BitVec.ofNat 32 Config.cap) })
        ∧ (0x0D ≤ (o.extractLsb' 2 6).toNat → step s = .next { s.advance with rdata := some 0 }))
    ∧ (s.writeNext o v →
      ((o.extractLsb' 2 6).toNat = 0x01 → v.getLsbD 1 = false →
          step s = .next { s.advance with ie := v.getLsbD 0 })
        ∧ ((o.extractLsb' 2 6).toNat = 0x01 → v.getLsbD 1 = true → ∃ t, step s = .next t ∧ HasResetValues t)
        ∧ ((o.extractLsb' 2 6).toNat = 0x02 →
            step s = .next { s.advance with
              done := s.done && !v.getLsbD 1, ovr := s.ovr && !v.getLsbD 3, perr := s.perr && !v.getLsbD 4 })
        ∧ (((o.extractLsb' 2 6).toNat = 0x00 ∨ 0x03 ≤ (o.extractLsb' 2 6).toNat)
            → (o.extractLsb' 2 6).toNat ≤ 0x0C → step s = .next { s.advance with ovr := true })
        ∧ (0x0D ≤ (o.extractLsb' 2 6).toNat → step s = .next s.advance))

/-- R58, R66: while BUSY = 1, no host access but a reset changes what the command in progress will read: CMD, ARG0, ARG1,
the buffers, ST, RK and KSV are as they were when it was accepted, and it stays in progress. -/
def Obligations.CommandInProgressKeepsOperands : Prop :=
  ∀ s t : State, s.busy = true → ¬s.engineNext → ¬s.resetNext → ¬s.softResetNext → step s = .next t →
    t.busy = true ∧ t.cmd = s.cmd ∧ t.arg0 = s.arg0 ∧ t.arg1 = s.arg1 ∧ (∀ b, t.buf b = s.buf b) ∧ t.st = s.st
      ∧ t.rk = s.rk ∧ t.ksv = s.ksv ∧ t.result = s.result ∧ t.bsel = s.bsel ∧ t.bidx = s.bidx

/-- R26 to R32, R44: a host read of STATUS returns each field in its place, the reserved bits 0, and changes nothing. -/
def Obligations.StatusReadReturnsFields : Prop :=
  ∀ (s : State) (o : BitVec 8), s.readNext o → o.extractLsb' 2 6 = 0x02#6 →
    ∃ w : Word, step s = .next { s.advance with rdata := some w }
      ∧ w.getLsbD 0 = s.busy ∧ w.getLsbD 1 = s.done ∧ w.getLsbD 2 = (s.errcode != 0) ∧ w.getLsbD 3 = s.ovr
      ∧ w.getLsbD 4 = s.perr ∧ w.getLsbD 5 = s.ksv ∧ w.getLsbD 6 = false ∧ w.getLsbD 7 = false
      ∧ (∀ k, k < 8 → w.getLsbD (8 + k) = s.errcode.getLsbD k) ∧ ∀ k, 16 ≤ k → w.getLsbD k = false

/-- R27, R29, R30, R32: a host write of STATUS clears DONE, OVR and PERR where bits 1, 3 and 4 are 1, and changes nothing
else, at any time. -/
def Obligations.StatusWriteClearsFlags : Prop :=
  ∀ (s : State) (o : BitVec 8) (v : Word), s.writeNext o v → o.extractLsb' 2 6 = 0x02#6 →
    step s = .next { s.advance with
      done := s.done && !v.getLsbD 1, ovr := s.ovr && !v.getLsbD 3, perr := s.perr && !v.getLsbD 4 }

/-- R25: CTRL reads IE in bit 0 and 0 elsewhere; a write with bit 1 = 0 sets IE to bit 0, at any time. -/
def Obligations.CtrlHoldsInterruptEnable : Prop :=
  ∀ (s : State) (o : BitVec 8) (v : Word), o.extractLsb' 2 6 = 0x01#6 →
    (s.readNext o → step s = .next { s.advance with rdata := some (if s.ie = true then 1 else 0) })
      ∧ (s.writeNext o v → v.getLsbD 1 = false → step s = .next { s.advance with ie := v.getLsbD 0 })

/-- R200, R201: a reset, hardware or soft, at any time, gives every piece of state its value of R46, and a soft reset does
exactly what a hardware reset does. RK, which R46 leaves unspecified, is not spoken of. The three fields the model adds to
the block's state pass a reset, which is the model's choice (log entries 6, 7 and 8). -/
def Obligations.ResetsGiveResetValues : Prop :=
  (∀ s : State, s.resetNext ∨ s.softResetNext → ∃ t, step s = .next t ∧ HasResetValues t
      ∧ t.schedule = s.schedule.tail ∧ t.rdata = s.rdata ∧ t.draws = s.draws)
    ∧ ∀ s s' : State, s.resetNext → s'.softResetNext → s'.schedule.tail = s.schedule.tail → s'.rdata = s.rdata →
        s'.draws = s.draws → ∃ t t', step s = .next t ∧ step s' = .next t' ∧ t' = { t with rk := t'.rk }

/-- R46, R202: the state after reset holds the values of R46. -/
def Obligations.ResetStateHasResetValues : Prop := HasResetValues State.reset

/-- R53, R57: a host read of BDATA while BUSY = 0. From BIDX = CAP on it is refused: PERR, 0, BIDX unchanged. Below CAP it
returns the slot's symbol and advances BIDX; an undefined slot follows UNDEF_READ, whose free byte and count of draws are
the model's (log entry 3). -/
def Obligations.BdataReadWhileIdle : Prop :=
  ∀ (s : State) (o : BitVec 8), s.readNext o → o.extractLsb' 2 6 = 0x09#6 → s.busy = false →
    (Config.cap ≤ s.bidx.toNat → step s = .next { s.advance with perr := true, rdata := some 0 })
      ∧ (s.bidx.toNat < Config.cap →
        (∀ v, s.slot ⟨s.bsel.toNat, s.bsel.isLt⟩ s.bidx.toNat = some v →
            step s = .next { s.advance with bidx := s.bidx + 1, rdata := some (BitVec.ofNat 32 v.toNat) })
          ∧ (s.slot ⟨s.bsel.toNat, s.bsel.isLt⟩ s.bidx.toNat = none →
            (Config.undefRead = .draw → step s = .next { s.advance with
                bidx := s.bidx + 1, draws := s.draws + 1,
                rdata := some (BitVec.ofNat 32 (Config.freeByte s.draws).toNat) })
              ∧ (Config.undefRead = .fault →
                  step s = .fault (.undefinedPortRead ⟨s.bsel.toNat, s.bsel.isLt⟩ s.bidx.toNat))))

/-- R54: a host write of BDATA while BUSY = 0 is refused with PERR where BIDX >= CAP or the buffer is HEX or B64; else it
stores bits 7:0 into the slot BIDX names, no other slot changes, and BIDX advances. -/
def Obligations.BdataWriteWhileIdle : Prop :=
  ∀ (s : State) (o : BitVec 8) (v : Word) (b : BufNum), s.writeNext o v → o.extractLsb' 2 6 = 0x09#6 →
    s.busy = false → b.val = s.bsel.toNat →
    (Config.cap ≤ s.bidx.toNat ∨ (s.buf b).enc = .hex ∨ (s.buf b).enc = .b64 →
        step s = .next { s.advance with perr := true })
      ∧ (s.bidx.toNat < Config.cap → (s.buf b).enc = .raw ∨ (s.buf b).enc = .text →
        ∃ t, step s = .next t ∧ t = { s with schedule := t.schedule, bufs := t.bufs, bidx := s.bidx + 1 }
          ∧ t.schedule = s.schedule.tail ∧ (t.buf b).enc = (s.buf b).enc ∧ (t.buf b).len = (s.buf b).len
          ∧ t.slot b s.bidx.toNat = some (BitVec.ofNat 8 v.toNat)
          ∧ (∀ i, i ≠ s.bidx.toNat → t.slot b i = s.slot b i) ∧ ∀ c, c ≠ b → t.buf c = s.buf c)

/-- R55: a host write of BLEN while BUSY = 0 is refused with PERR where the value exceeds CAP or the buffer is HEX or B64;
else it sets the selected buffer's length and nothing else. -/
def Obligations.BlenWriteWhileIdle : Prop :=
  ∀ (s : State) (o : BitVec 8) (v : Word) (b : BufNum), s.writeNext o v → o.extractLsb' 2 6 = 0x0A#6 →
    s.busy = false → b.val = s.bsel.toNat →
    (Config.cap < v.toNat ∨ (s.buf b).enc = .hex ∨ (s.buf b).enc = .b64 →
        step s = .next { s.advance with perr := true })
      ∧ (v.toNat ≤ Config.cap → (s.buf b).enc = .raw ∨ (s.buf b).enc = .text →
        ∃ t, step s = .next t ∧ t = { s with schedule := t.schedule, bufs := t.bufs }
          ∧ t.schedule = s.schedule.tail ∧ t.buf b = { s.buf b with len := v.toNat }
          ∧ ∀ c, c ≠ b → t.buf c = s.buf c)

/-- R56: a host write of BENC while BUSY = 0 sets the selected buffer's tag to RAW (2) or TEXT (3) by bits 1:0, length and
symbols unchanged; the values 0 and 1 are refused with PERR. -/
def Obligations.BencWriteWhileIdle : Prop :=
  ∀ (s : State) (o : BitVec 8) (v : Word) (b : BufNum), s.writeNext o v → o.extractLsb' 2 6 = 0x0B#6 →
    s.busy = false → b.val = s.bsel.toNat →
    (v.toNat % 4 < 2 → step s = .next { s.advance with perr := true })
      ∧ (2 ≤ v.toNat % 4 →
        ∃ t, step s = .next t ∧ t = { s with schedule := t.schedule, bufs := t.bufs }
          ∧ t.schedule = s.schedule.tail
          ∧ t.buf b = { s.buf b with enc := if v.toNat % 4 = 2 then .raw else .text }
          ∧ ∀ c, c ≠ b → t.buf c = s.buf c)

/-- R24, R25, R32 to R38, R40 to R42, R51: a host read while BUSY = 0 of ID, CTRL, STATUS, CMD, ARG0, ARG1, RESULT, BSEL,
BIDX, BLEN, BENC, CAPR or an unmapped offset, which is every register but BDATA, returns its value and changes nothing of
the block. (The bits of the STATUS word are O10's.) -/
def Obligations.IdleReadsReturnRegisters : Prop :=
  ∀ (s : State) (o : BitVec 8) (b : BufNum), s.readNext o → s.busy = false → b.val = s.bsel.toNat →
    ((o.extractLsb' 2 6).toNat = 0x00 → step s = .next { s.advance with rdata := some 0x43504C01 })
      ∧ ((o.extractLsb' 2 6).toNat = 0x01 →
          step s = .next { s.advance with rdata := some (if s.ie = true then 1 else 0) })
      ∧ ((o.extractLsb' 2 6).toNat = 0x02 → step s = .next { s.advance with rdata := some s.statusWord })
      ∧ ((o.extractLsb' 2 6).toNat = 0x03 → step s = .next { s.advance with rdata := some s.cmd })
      ∧ ((o.extractLsb' 2 6).toNat = 0x04 → step s = .next { s.advance with rdata := some s.arg0 })
      ∧ ((o.extractLsb' 2 6).toNat = 0x05 → step s = .next { s.advance with rdata := some s.arg1 })
      ∧ ((o.extractLsb' 2 6).toNat = 0x06 → step s = .next { s.advance with rdata := some s.result })
      ∧ ((o.extractLsb' 2 6).toNat = 0x07 →
          step s = .next { s.advance with rdata := some (BitVec.ofNat 32 s.bsel.toNat) })
      ∧ ((o.extractLsb' 2 6).toNat = 0x08 → step s = .next { s.advance with rdata := some s.bidx })
      ∧ ((o.extractLsb' 2 6).toNat = 0x0A →
          step s = .next { s.advance with rdata := some (BitVec.ofNat 32 (s.buf b).len) })
      ∧ ((o.extractLsb' 2 6).toNat = 0x0B →
          step s = .next { s.advance with rdata := some (BitVec.ofNat 32 (s.buf b).enc.code.toNat) })
      ∧ ((o.extractLsb' 2 6).toNat = 0x0C →
          step s = .next { s.advance with rdata := some (BitVec.ofNat 32 Config.cap) })
      ∧ (0x0D ≤ (o.extractLsb' 2 6).toNat → step s = .next { s.advance with rdata := some 0 })

/-- R24, R34 to R38, R42: while BUSY = 0 a host write of ARG0, ARG1, BSEL (bits 2:0) or BIDX stores, and one of ID, RESULT,
CAPR or an unmapped offset is ignored. -/
def Obligations.IdleWritesStoreRegisters : Prop :=
  ∀ (s : State) (o : BitVec 8) (v : Word), s.writeNext o v → s.busy = false →
    ((o.extractLsb' 2 6).toNat = 0x04 → step s = .next { s.advance with arg0 := v })
      ∧ ((o.extractLsb' 2 6).toNat = 0x05 → step s = .next { s.advance with arg1 := v })
      ∧ ((o.extractLsb' 2 6).toNat = 0x07 → step s = .next { s.advance with bsel := BitVec.ofNat 3 v.toNat })
      ∧ ((o.extractLsb' 2 6).toNat = 0x08 → step s = .next { s.advance with bidx := v })
      ∧ ((o.extractLsb' 2 6).toNat ∈ [0x00, 0x06, 0x0C] → step s = .next s.advance)
      ∧ (0x0D ≤ (o.extractLsb' 2 6).toNat → step s = .next s.advance)

/-- R89, R54 to R56: LOAD on an idle block, for every buffer, either tag and every byte string that fits, leaves the buffer
holding exactly that string; no other buffer changes and no port access is refused. (The script stands in the event list:
log entry 6.) -/
def Obligations.LoadScriptFillsBuffer : Prop :=
  ∀ (s : State) (b : BufNum) (tag : Enc) (bytes : List Byte), s.busy = false → tag = .raw ∨ tag = .text →
    bytes.length ≤ Config.cap → s.schedule = scriptLoad b tag bytes →
    ∃ t, Host.Core.run Sys2Proof.core (bytes.length + 4) s = .next t ∧ t.schedule = [] ∧ BufferWritten s t b tag bytes
      ∧ t = { s with
          schedule := [], bufs := t.bufs, bsel := BitVec.ofNat 3 b.val, bidx := BitVec.ofNat 32 bytes.length }

/-! ## Laws of every command -/

/-- R160: every command completes with a next state, in every state whose operands can be read: UNDEF_READ is `draw`, or
every slot below a buffer's length is defined (log entry 3). -/
def Obligations.EveryCommandCompletes : Prop :=
  ∀ (i : Instr) (s : State), (Config.undefRead = .draw ∨ ∀ b, s.allDefined b) → ∃ t, exec i s = .next t

/-- R57, U1: a command faults only where UNDEF_READ is `fault`, at an undefined slot below the length of one of its source
buffers A and B, and the fault names the command; no command is refused. (The form of the fault is the model's: log
entry 3.) -/
def Obligations.CommandsFaultOnlyAtUndefinedSlots : Prop :=
  ∀ (i : Instr) (s : State),
    (∀ r, exec i s = .fault r → Config.undefRead = .fault
      ∧ ∃ b k, r = .undefinedOperand (mnemonicOf i) b k ∧ b ∈ sourcesOf i ∧ k < (s.buf b).len ∧ s.slot b k = none)
    ∧ ∀ r, exec i s ≠ .refused r

/-- R8, R57: the symbols of a buffer, in index order. Where every slot below len is defined or UNDEF_READ is `draw`, a
defined slot gives its symbol and each undefined one a free byte of its own; where UNDEF_READ is `fault`, the first
undefined slot stops the read. (A fresh free byte for every read is the model's: log entry 3.) -/
def Obligations.OperandReadsFollowUndefRead : Prop :=
  ∀ (b : Buffer) (d : Nat),
    (Config.undefRead = .draw ∨ (∀ k, k < b.len → b.sym.read k ≠ none) →
        b.syms d = .ok ((List.range b.len).map (fun k => (b.sym.read k).getD (Config.freeByte (d + undefinedBelow b k))),
          d + undefinedBelow b b.len))
      ∧ (Config.undefRead = .fault → ∀ k, k < b.len → b.sym.read k = none → (∀ j, j < k → b.sym.read j ≠ none) →
          b.syms d = .error k)

/-- R160, R180, R182, R185: every command that completes sets DONE, clears BUSY, leaves a code of R180, raises IRQ exactly
where CTRL.IE = 1, and leaves the registers no command writes. -/
def Obligations.CompletionsSetStatus : Prop :=
  ∀ (i : Instr) (s t : State), exec i s = .next t →
    t.done = true ∧ t.busy = false ∧ t.errcode.toNat ≤ 12 ∧ t.irq = s.ie ∧ RegistersKept s t

/-- R161, R182: a command that completes with an error code writes ERRCODE, DONE and BUSY, and nothing else of the block:
no buffer, ST, RK, KSV or RESULT, and CMD, ARG0 and ARG1 stay. The same holds of every ENGINE step, an illegal word's
included. (The count of draws and the events to come are the model's own: log entries 6 and 8.) -/
def Obligations.FailingCommandsWriteOnlyStatus : Prop :=
  (∀ (i : Instr) (s t : State), exec i s = .next t → t.errcode ≠ 0 → t = s.failed t.errcode t.draws)
    ∧ ∀ s t : State, s.busy = true → s.engineNext → step s = .next t → t.errcode ≠ 0 →
        t = State.failed { s with schedule := s.schedule.tail } t.errcode t.draws

/-- R20, R21, R22, R35, R161: each command writes only the state its rule names: RESULT by HAMM and TBLRD alone, ST by the
round-level commands alone, RK and KSV by KEYEXP and DECECB alone, and no buffer but D. -/
def Obligations.CommandsWriteOnlyTheirTargets : Prop :=
  ∀ (i : Instr) (s t : State), exec i s = .next t →
    (¬writesResult i → t.result = s.result) ∧ (¬writesSt i → t.st = s.st)
      ∧ (¬writesKeys i → t.rk = s.rk ∧ t.ksv = s.ksv) ∧ ∀ b, destOf i ≠ some b → t.buf b = s.buf b

/-- R22, R181: over any step, KSV goes from 1 to 0 by a reset alone, and from 0 to 1 by an ENGINE step of KEYEXP or DECECB
that completes with NONE alone. -/
def Obligations.KsvChangesOnlyByKeysAndReset : Prop :=
  ∀ s t : State, step s = .next t →
    (s.ksv = true → t.ksv = false → s.resetNext ∨ s.softResetNext)
      ∧ (s.ksv = false → t.ksv = true →
        s.busy = true ∧ s.engineNext ∧ t.errcode = 0 ∧ ∃ i, decode s.cmd = .ok i ∧ writesKeys i)

/-! ## Invariants -/

/-- R15, R17: from every state whose buffers fit their capacity, in canonical form, every step gives such a state. -/
def Obligations.StepKeepsBuffersFit : Prop := ∀ s t : State, BuffersFit s → step s = .next t → BuffersFit t

/-- R18: from every state whose symbols are valid for their tags, every step, of a command or of the HOST, gives such a
state. (That HEX and B64 buffers hold no undefined slot below len is the model's inference: log entry 14.) -/
def Obligations.StepKeepsSymbolsValid : Prop := ∀ s t : State, SymbolsValid s → step s = .next t → SymbolsValid t

/-- R22: from every state where KSV = 1 means that RK is the expansion of some key, every step gives such a state. -/
def Obligations.StepKeepsKeysValid : Prop := ∀ s t : State, KeysValid s → step s = .next t → KeysValid t

/-- R159, R180: from every state whose STATUS is legal, every step gives such a state. -/
def Obligations.StepKeepsStatusLegal : Prop := ∀ s t : State, StatusLegal s → step s = .next t → StatusLegal t

/-- The reset state satisfies the four invariants. -/
def Obligations.ResetSatisfiesInvariants : Prop :=
  BuffersFit State.reset ∧ SymbolsValid State.reset ∧ KeysValid State.reset ∧ StatusLegal State.reset

/-! ## What each command does -/

/-- R163: NOP completes with NONE and writes nothing else. -/
def Obligations.NopOnlyCompletes : Prop :=
  ∀ s : State, exec .nop s = .next { s with errcode := 0, done := true, busy := false }

/-- R92, R184: PARSE fails with EncodingMismatch (3) where A is not TEXT, then with InvalidSymbol (1) where a character is
outside the alphabet, and else writes the symbols to D with tag E. -/
def Obligations.ParseMapsCharacters : Prop :=
  ∀ (d a : BufNum) (e : Enc) (s : State), e.nameable = true →
    ((s.buf a).enc ≠ .text → exec (.parse d a e) s = .next (s.failed 3 s.draws))
      ∧ ((s.buf a).enc = .text → ∀ t n, s.Reads a s.draws t n →
        ((∃ c, c ∈ t ∧ charToSym e c = none) → exec (.parse d a e) s = .next (s.failed 1 n))
          ∧ ∀ q, t.map (charToSym e) = q.map some →
              ∃ u, exec (.parse d a e) s = .next u ∧ WroteBuffer s u d e q n)

/-- R97: RENDER fails with EncodingMismatch (3) where A is TEXT, and else writes the characters to D as TEXT. (The
character of a symbol that is not valid, which R18 rules out, is a free value: log entry 5.) -/
def Obligations.RenderMapsSymbols : Prop :=
  ∀ (d a : BufNum) (s : State),
    ((s.buf a).enc = .text → exec (.render d a) s = .next (s.failed 3 s.draws))
      ∧ ((s.buf a).enc ≠ .text → ∀ q n, s.Reads a s.draws q n →
        ∃ u, exec (.render d a) s = .next u ∧ WroteBuffer s u d .text (q.map (symToChar (s.buf a).enc)) n)

/-- R91: parsing follows the rows of the table, and a code that no row of the encoding holds is invalid; HEX renders 0 to 9
and, in lower case, 10 to 15; B64 renders the code of the row; RAW is the identity. Rendering is the inverse of parsing:
every valid symbol has a character, which parses to it, and every symbol parsed is valid. -/
def Obligations.AlphabetsAreInverse : Prop :=
  (∀ c : Byte,
      (0x30 ≤ c.toNat ∧ c.toNat ≤ 0x39 → charToSym .hex c = some (c - 0x30))
        ∧ (0x41 ≤ c.toNat ∧ c.toNat ≤ 0x46 → charToSym .hex c = some (c - 0x37))
        ∧ (0x61 ≤ c.toNat ∧ c.toNat ≤ 0x66 → charToSym .hex c = some (c - 0x57))
        ∧ (c.toNat < 0x30 ∨ (0x39 < c.toNat ∧ c.toNat < 0x41) ∨ (0x46 < c.toNat ∧ c.toNat < 0x61) ∨ 0x66 < c.toNat →
            charToSym .hex c = none))
    ∧ (∀ c : Byte,
      (0x41 ≤ c.toNat ∧ c.toNat ≤ 0x5A → charToSym .b64 c = some (c - 0x41))
        ∧ (0x61 ≤ c.toNat ∧ c.toNat ≤ 0x7A → charToSym .b64 c = some (c - 0x47))
        ∧ (0x30 ≤ c.toNat ∧ c.toNat ≤ 0x39 → charToSym .b64 c = some (c + 0x04))
        ∧ (c.toNat = 0x2B → charToSym .b64 c = some 62) ∧ (c.toNat = 0x2F → charToSym .b64 c = some 63)
        ∧ (c.toNat = 0x3D → charToSym .b64 c = some 255)
        ∧ (c.toNat < 0x2B ∨ (0x2B < c.toNat ∧ c.toNat < 0x2F) ∨ (0x39 < c.toNat ∧ c.toNat < 0x3D)
              ∨ (0x3D < c.toNat ∧ c.toNat < 0x41) ∨ (0x5A < c.toNat ∧ c.toNat < 0x61) ∨ 0x7A < c.toNat →
            charToSym .b64 c = none))
    ∧ (∀ v : Byte, charToSym .raw v = some v ∧ symToChar .raw v = v)
    ∧ (∀ v : Byte, (v.toNat ≤ 9 → symToChar .hex v = 0x30 + v)
        ∧ (10 ≤ v.toNat ∧ v.toNat ≤ 15 → symToChar .hex v = 0x57 + v))
    ∧ (∀ c v : Byte, charToSym .b64 c = some v → symToChar .b64 v = c)
    ∧ (∀ c v : Byte, charToSym .hex c = some v → symToChar .hex v = if c.toNat < 0x47 ∧ 0x40 < c.toNat then c + 0x20 else c)
    ∧ (∀ (e : Enc) (v : Byte), e.nameable = true → validSym e v = true → charToSym e (symToChar e v) = some v)
    ∧ ∀ (e : Enc) (c v : Byte), charToSym e c = some v → e.nameable = true ∧ validSym e v = true

/-- R93, R184: CONVERT fails, in this order, with EncodingMismatch (3) where A is TEXT, MisalignedEncoding (2) where the
length constraint is violated, PaddingOperand (12) where the pair cannot carry a sentinel or pad bits are non-zero, and
CapacityExceeded (10) where the result is longer than CAP; else it writes the packed symbols to D with tag E. -/
def Obligations.ConvertPacksOrFails : Prop :=
  ∀ (d a : BufNum) (e : Enc) (s : State), e.nameable = true →
    ((s.buf a).enc = .text → exec (.convert d a e) s = .next (s.failed 3 s.draws))
      ∧ ((s.buf a).enc ≠ .text → ∀ q n, s.Reads a s.draws q n →
        (q.length % convertUnit (s.buf a).enc e ≠ 0 → exec (.convert d a e) s = .next (s.failed 2 n))
          ∧ (q.length % convertUnit (s.buf a).enc e = 0 → paddingRefused (s.buf a).enc e q →
              exec (.convert d a e) s = .next (s.failed 12 n))
          ∧ (q.length % convertUnit (s.buf a).enc e = 0 → ¬paddingRefused (s.buf a).enc e q →
              (Config.cap < convertLength (s.buf a).enc e q → exec (.convert d a e) s = .next (s.failed 10 n))
                ∧ (convertLength (s.buf a).enc e q ≤ Config.cap →
                    ∃ u r, exec (.convert d a e) s = .next u ∧ pack (s.buf a).enc e q = .ok r
                      ∧ WroteBuffer s u d e r n)))

/-- R93: an accepted conversion has the output length of the table, and the result's symbols are valid. -/
def Obligations.ConversionLengthsFollowTable : Prop :=
  ∀ (f t : Enc) (q r : List Byte), f.nameable = true → t.nameable = true → (∀ v, v ∈ q → validSym f v = true) →
    pack f t q = .ok r → r.length = convertLength f t q ∧ ∀ v, v ∈ r → validSym t v = true

/-- R59, R93 to R96: an accepted conversion between two different encodings is an exact bit regrouping, most significant
first: operand and result carry the same bits, but for the zero pad bits of the B64 form of bytes. -/
def Obligations.ConversionRegroupsBits : Prop :=
  ∀ (f t : Enc) (q r : List Byte), f.nameable = true → t.nameable = true → (∀ v, v ∈ q → validSym f v = true) →
    pack f t q = .ok r →
    bitString f q ++ List.replicate (if f = .raw ∧ t = .b64 then padBits q.length else 0) false
      = bitString t r ++ List.replicate (if f = .b64 ∧ t = .raw then padBits r.length else 0) false

/-- R99: where CONVERT of a Storage value succeeds, CONVERT of the result back to the first encoding succeeds and gives
exactly the value, sentinels included. -/
def Obligations.ConversionRoundTrips : Prop :=
  ∀ (d d' a : BufNum) (e : Enc) (s t : State) (q : List Byte) (n : Nat),
    (s.buf a).enc.nameable = true → e.nameable = true → s.Reads a s.draws q n →
    (∀ v, v ∈ q → validSym (s.buf a).enc v = true) → q.length ≤ Config.cap →
    exec (.convert d a e) s = .next t → t.errcode = 0 →
    ∃ u, exec (.convert d' d (s.buf a).enc) t = .next u ∧ u.errcode = 0
      ∧ BufferWritten t u d' (s.buf a).enc q

/-- R98, R184 (SLICE reads all of A once its bounds hold: log entry 15): SLICE fails with EncodingMismatch (3) where A is TEXT, then with IndexOutOfRange (6) where the bounds do not
hold, and else writes symbols ARG0 to ARG1 - 1 of A to D with A's tag. -/
def Obligations.SliceCopiesRange : Prop :=
  ∀ (d a : BufNum) (s : State),
    ((s.buf a).enc = .text → exec (.slice d a) s = .next (s.failed 3 s.draws))
      ∧ ((s.buf a).enc ≠ .text →
        (s.arg1.toNat < s.arg0.toNat ∨ (s.buf a).len < s.arg0.toNat ∨ (s.buf a).len < s.arg1.toNat →
            exec (.slice d a) s = .next (s.failed 6 s.draws))
          ∧ (s.arg0.toNat ≤ s.arg1.toNat → s.arg1.toNat ≤ (s.buf a).len → ∀ q n, s.Reads a s.draws q n →
            ∃ u, exec (.slice d a) s = .next u
              ∧ WroteBuffer s u d (s.buf a).enc ((q.drop s.arg0.toNat).take (s.arg1.toNat - s.arg0.toNat)) n))

/-- R108, R109, R184: XOR fails, in this order, with EncodingMismatch (3), EmptyOperand (4), LengthMismatch (5) and, on a
B64 result that is not valid, PaddingOperand (12); else it writes `a[i] ^ b[i mod len(b)]` to D with A's tag. -/
def Obligations.XorCyclesKey : Prop :=
  ∀ (d a b : BufNum) (s : State),
    ((s.buf a).enc = .text ∨ (s.buf b).enc = .text ∨ (s.buf a).enc ≠ (s.buf b).enc →
        exec (.xor d a b) s = .next (s.failed 3 s.draws))
      ∧ ((s.buf a).enc ≠ .text → (s.buf a).enc = (s.buf b).enc →
        ∀ qa qb n m, s.Reads a s.draws qa n → s.Reads b n qb m →
          (qa = [] ∨ qb = [] → exec (.xor d a b) s = .next (s.failed 4 m))
            ∧ (qa ≠ [] → qb ≠ [] → qa.length % qb.length ≠ 0 → exec (.xor d a b) s = .next (s.failed 5 m))
            ∧ (qa ≠ [] → qb ≠ [] → qa.length % qb.length = 0 →
              ((s.buf a).enc = .b64 ∧ (∃ v, v ∈ xorResult qa qb ∧ 63 < v.toNat ∧ v ≠ 255) →
                  exec (.xor d a b) s = .next (s.failed 12 m))
                ∧ (¬((s.buf a).enc = .b64 ∧ ∃ v, v ∈ xorResult qa qb ∧ 63 < v.toNat ∧ v ≠ 255) →
                  ∃ u, exec (.xor d a b) s = .next u ∧ WroteBuffer s u d (s.buf a).enc (xorResult qa qb) m)))

/-- R111: XOR with the same key undoes XOR, elementwise or repeating, where the key's buffer is not D and holds no
undefined slot (two reads of such a slot may differ: log entry 3); XOR of a buffer with itself gives zeros. -/
def Obligations.XorIsInvolution : Prop :=
  (∀ (d d' a b : BufNum) (s t : State) (qa : List Byte) (n : Nat), d ≠ b → s.allDefined b →
      s.Reads a s.draws qa n → (∀ v, v ∈ qa → validSym (s.buf a).enc v = true) →
      exec (.xor d a b) s = .next t → t.errcode = 0 →
      ∃ u, exec (.xor d' d b) t = .next u ∧ u.errcode = 0 ∧ BufferWritten t u d' (s.buf a).enc qa)
    ∧ ∀ (d a : BufNum) (s : State), (s.buf a).enc ≠ .text → 0 < (s.buf a).len → s.allDefined a →
        ∃ u, exec (.xor d a a) s = .next u ∧ WroteBuffer s u d (s.buf a).enc (zeros (s.buf a).len) s.draws

/-- R110, R166, R184: HAMM fails with EncodingMismatch (3), then LengthMismatch (5); else it writes the number of differing
meaningful bits to RESULT, which does not wrap where the length is at most CAP. -/
def Obligations.HammCountsDifferingBits : Prop :=
  ∀ (a b : BufNum) (s : State),
    ((s.buf a).enc = .text ∨ (s.buf b).enc = .text ∨ (s.buf a).enc ≠ (s.buf b).enc →
        exec (.hamm a b) s = .next (s.failed 3 s.draws))
      ∧ ((s.buf a).enc ≠ .text → (s.buf a).enc = (s.buf b).enc →
        ((s.buf a).len ≠ (s.buf b).len → exec (.hamm a b) s = .next (s.failed 5 s.draws))
          ∧ ((s.buf a).len = (s.buf b).len → ∀ qa qb n m, s.Reads a s.draws qa n → s.Reads b n qb m →
            ∃ u, exec (.hamm a b) s = .next u
              ∧ WroteResult s u (BitVec.ofNat 32 (hammDistance (s.buf a).enc qa qb)) m
              ∧ ((s.buf a).len ≤ Config.cap → u.result.toNat = hammDistance (s.buf a).enc qa qb)))

/-- R112: on Storage operands that HAMM accepts and whose slots are defined (log entry 3), the distance is symmetric, and it
is 0 from a buffer to itself. -/
def Obligations.HammIsSymmetric : Prop :=
  ∀ (a b : BufNum) (s : State), s.allDefined a → s.allDefined b → (s.buf a).enc ≠ .text →
    ((s.buf a).enc = (s.buf b).enc → (s.buf a).len = (s.buf b).len →
        ∃ t, exec (.hamm a b) s = .next t ∧ exec (.hamm b a) s = .next t)
      ∧ ∃ u, exec (.hamm a a) s = .next u ∧ u.errcode = 0 ∧ u.result = 0

/-- R124, R126, R184: KEYEXP fails with EncodingMismatch (3) where A is not RAW, then with InvalidKeyLength (8) where its
length is not 16; else RK becomes the key schedule of A's bytes and KSV = 1. -/
def Obligations.KeyexpExpandsKey : Prop :=
  ∀ (a : BufNum) (s : State),
    ((s.buf a).enc ≠ .raw → exec (.keyexp a) s = .next (s.failed 3 s.draws))
      ∧ ((s.buf a).enc = .raw →
        ((s.buf a).len ≠ 16 → exec (.keyexp a) s = .next (s.failed 8 s.draws))
          ∧ ((s.buf a).len = 16 → ∀ q n, s.Reads a s.draws q n →
            ∃ u key, exec (.keyexp a) s = .next u ∧ Succeeded s u ∧ BuffersKept s u ∧ u.st = s.st
              ∧ u.result = s.result ∧ u.draws = n ∧ u.ksv = true
              ∧ (∀ i : Fin 16, q[i.val]? = some (key.get i)) ∧ IsKeySchedule key u.rk))

/-- R127, R184: DECECB fails, in this order, with EncodingMismatch (3), InvalidBlockLength (7) and InvalidKeyLength (8);
else RK and KSV are as KEYEXP of the key sets them and D holds, as RAW, InvCipher of each 16-byte block under that one
schedule. ST is unchanged. -/
def Obligations.DececbDecryptsBlocks : Prop :=
  ∀ (d a b : BufNum) (s : State),
    ((s.buf a).enc ≠ .raw ∨ (s.buf b).enc ≠ .raw → exec (.dececb d a b) s = .next (s.failed 3 s.draws))
      ∧ ((s.buf a).enc = .raw → (s.buf b).enc = .raw →
        ((s.buf a).len % 16 ≠ 0 → exec (.dececb d a b) s = .next (s.failed 7 s.draws))
          ∧ ((s.buf a).len % 16 = 0 → (s.buf b).len ≠ 16 → exec (.dececb d a b) s = .next (s.failed 8 s.draws))
          ∧ ((s.buf a).len % 16 = 0 → (s.buf b).len = 16 →
            ∀ k ct n m, s.Reads b s.draws k n → s.Reads a n ct m →
              ∃ u key r, exec (.dececb d a b) s = .next u ∧ Succeeded s u ∧ BufferWritten s u d .raw r ∧ u.st = s.st
                ∧ u.result = s.result ∧ u.draws = m ∧ u.ksv = true
                ∧ (∀ i : Fin 16, k[i.val]? = some (key.get i)) ∧ IsKeySchedule key u.rk
                ∧ r.length = ct.length
                ∧ ∀ (j : Nat) (i : Fin 16) (x : Block), 16 * j + 16 ≤ ct.length →
                    (∀ l : Fin 16, ct[16 * j + l.val]? = some (x.get l)) →
                    r[16 * j + i.val]? = some ((invCipher x u.rk).get i)))

/-- R136: two equal blocks of a ciphertext give two equal blocks of the result. -/
def Obligations.EqualBlocksDecryptEqually : Prop :=
  ∀ (d a b : BufNum) (s t : State) (k ct : List Byte) (n m j j' : Nat), s.Reads b s.draws k n → s.Reads a n ct m →
    exec (.dececb d a b) s = .next t → t.errcode = 0 → 16 * j + 16 ≤ ct.length → 16 * j' + 16 ≤ ct.length →
    (∀ i, i < 16 → ct[16 * j + i]? = ct[16 * j' + i]?) →
    ∀ i, i < 16 → t.slot d (16 * j + i) = t.slot d (16 * j' + i)

/-- R137: DECECB of 66e94bd4ef8a2c3b884cfa59ca342b2e under the all-zero key gives 16 zero bytes. -/
def Obligations.ZeroKeyKnownAnswer : Prop :=
  ∀ (d a b : BufNum) (s : State), (s.buf a).enc = .raw → (s.buf a).len = 16 →
    (∀ i, i < 16 → s.slot a i =
      ([0x66, 0xe9, 0x4b, 0xd4, 0xef, 0x8a, 0x2c, 0x3b, 0x88, 0x4c, 0xfa, 0x59, 0xca, 0x34, 0x2b, 0x2e] : List Byte)[i]?) →
    (s.buf b).enc = .raw → (s.buf b).len = 16 → (∀ i, i < 16 → s.slot b i = some 0) →
    ∃ t, exec (.dececb d a b) s = .next t ∧ t.errcode = 0 ∧ (t.buf d).enc = .raw ∧ (t.buf d).len = 16
      ∧ ∀ i, i < 16 → t.slot d i = some 0

/-- R128, R184: STLD fails with EncodingMismatch (3) where A is not RAW, then with InvalidBlockLength (7) where its length is
not 16; else ST[i] becomes symbol i of A. -/
def Obligations.StldLoadsState : Prop :=
  ∀ (a : BufNum) (s : State),
    ((s.buf a).enc ≠ .raw → exec (.stld a) s = .next (s.failed 3 s.draws))
      ∧ ((s.buf a).enc = .raw →
        ((s.buf a).len ≠ 16 → exec (.stld a) s = .next (s.failed 7 s.draws))
          ∧ ((s.buf a).len = 16 → ∀ q n, s.Reads a s.draws q n →
            ∃ u, exec (.stld a) s = .next u ∧ WroteSt s u n ∧ ∀ i : Fin 16, q[i.val]? = some (u.st.get i)))

/-- R129: STST writes the 16 bytes of ST to D as RAW. -/
def Obligations.StstStoresState : Prop :=
  ∀ (d : BufNum) (s : State), ∃ u q, exec (.stst d) s = .next u ∧ WroteBuffer s u d .raw q s.draws ∧ q.length = 16
    ∧ ∀ i : Fin 16, q[i.val]? = some (s.st.get i)

/-- R120, R130, R181, R184: ARK fails with NoKeySchedule (11) where KSV = 0, then with IndexOutOfRange (6) where ARG0 > 10;
else every byte of ST is XORed with that byte of RK[ARG0]. -/
def Obligations.ArkXorsRoundKey : Prop :=
  ∀ s : State,
    (s.ksv = false → exec .ark s = .next (s.failed 11 s.draws))
      ∧ (s.ksv = true → 10 < s.arg0.toNat → exec .ark s = .next (s.failed 6 s.draws))
      ∧ ∀ n : Fin 11, s.ksv = true → s.arg0.toNat = n.val →
          ∃ u, exec .ark s = .next u ∧ WroteSt s u s.draws
            ∧ ∀ i : Fin 16, u.st.get i = s.st.get i ^^^ (s.rk.get n).get i

/-- R121 to R123, R131 to R133: ISR moves the byte at row r, column c to column c + r; ISB replaces every byte through
INV_SBOX, the inverse of SBOX; IMC replaces every column by its GF(2^8) product. -/
def Obligations.RoundTransformsChangeSt : Prop :=
  ∀ s : State,
    (∃ u, exec .isr s = .next u ∧ WroteSt s u s.draws
        ∧ ∀ r c : Fin 4, u.st.get (cell r (c + r)) = s.st.get (cell r c))
      ∧ (∃ u, exec .isb s = .next u ∧ WroteSt s u s.draws ∧ ∀ i : Fin 16, sbox (u.st.get i) = s.st.get i)
      ∧ ∃ u, exec .imc s = .next u ∧ WroteSt s u s.draws
          ∧ ∀ c : Fin 4, IsInvMixColumn (s.st.get (cell 0 c)) (s.st.get (cell 1 c)) (s.st.get (cell 2 c))
              (s.st.get (cell 3 c)) (u.st.get (cell 0 c)) (u.st.get (cell 1 c)) (u.st.get (cell 2 c))
              (u.st.get (cell 3 c))

/-- R134, R181: DECBLK fails with NoKeySchedule (11) where KSV = 0; else ST becomes InvCipher of ST under RK. -/
def Obligations.DecblkDecryptsState : Prop :=
  ∀ s : State,
    (s.ksv = false → exec .decblk s = .next (s.failed 11 s.draws))
      ∧ (s.ksv = true → ∃ u, exec .decblk s = .next u ∧ WroteSt s u s.draws ∧ u.st = invCipher s.st s.rk)

/-- R125, R193: where KSV = 1, DECBLK leaves in ST what the sequence ARK 10; nine rounds of ISR, ISB, ARK 10 - round, IMC;
ISR, ISB, ARK 0 leaves there, and that sequence writes no buffer, RK or RESULT. -/
def Obligations.DecblkEqualsRoundCommands : Prop :=
  ∀ s : State, s.ksv = true →
    ∃ t u, exec .decblk s = .next t ∧ runCommands cipherCommands s = .next u ∧ u.st = t.st ∧ u.errcode = 0
      ∧ (∀ b, u.buf b = s.buf b) ∧ u.rk = s.rk ∧ u.ksv = true ∧ u.result = s.result

/-- R135, R181, R184: RKRD fails with NoKeySchedule (11) where KSV = 0, then with IndexOutOfRange (6) where ARG0 > 10; else it
writes the 16 bytes of RK[ARG0] to D as RAW. -/
def Obligations.RkrdCopiesRoundKey : Prop :=
  ∀ (d : BufNum) (s : State),
    (s.ksv = false → exec (.rkrd d) s = .next (s.failed 11 s.draws))
      ∧ (s.ksv = true → 10 < s.arg0.toNat → exec (.rkrd d) s = .next (s.failed 6 s.draws))
      ∧ ∀ n : Fin 11, s.ksv = true → s.arg0.toNat = n.val →
          ∃ u q, exec (.rkrd d) s = .next u ∧ WroteBuffer s u d .raw q s.draws ∧ q.length = 16
            ∧ ∀ i : Fin 16, q[i.val]? = some ((s.rk.get n).get i)

/-- R155: TBLRD fails with IndexOutOfRange (6) where ARG1 > 6, where ARG1 = 2 and ARG0 is not 1 to 10, and where ARG1 is
another table and ARG0 > 255; else RESULT is the entry of the table, zero-extended. -/
def Obligations.TblrdReadsTables : Prop :=
  ∀ s : State,
    (6 < s.arg1.toNat ∨ (s.arg1.toNat = 2 ∧ (s.arg0.toNat < 1 ∨ 10 < s.arg0.toNat))
          ∨ (s.arg1.toNat ≠ 2 ∧ 255 < s.arg0.toNat) →
        exec .tblrd s = .next (s.failed 6 s.draws))
      ∧ (s.arg1.toNat ≤ 6 → s.arg1.toNat ≠ 2 → ∀ x : Byte, s.arg0.toNat = x.toNat →
        ∃ u v, exec .tblrd s = .next u ∧ WroteResult s u (BitVec.ofNat 32 v.toNat) s.draws
          ∧ v = (match s.arg1.toNat with
            | 0 => sbox x
            | 1 => invSbox x
            | 3 => gfMul 9 x
            | 4 => gfMul 11 x
            | 5 => gfMul 13 x
            | _ => gfMul 14 x))
      ∧ (s.arg1.toNat = 2 → 1 ≤ s.arg0.toNat → s.arg0.toNat ≤ 10 →
        ∃ u, exec .tblrd s = .next u
          ∧ WroteResult s u (BitVec.ofNat 32 (xtimes (s.arg0.toNat - 1) 0x01).toNat) s.draws)

/-- R148, R156: the table identities: INV_SBOX inverts SBOX, the multiplication tables are the GF(2^8) products, RCON[i] is
xtime^(i-1)(1), and SBOX[x] is the affine transform of the inverse of x (of 0 for x = 0). -/
def Obligations.TablesAreConsistent : Prop :=
  (∀ x : Byte, invSbox (sbox x) = x ∧ sbox (invSbox x) = x)
    ∧ (∀ x : Byte, mul9 x = gfMul 9 x ∧ mul11 x = gfMul 11 x ∧ mul13 x = gfMul 13 x ∧ mul14 x = gfMul 14 x)
    ∧ (∀ i : Nat, rcon i = if 1 ≤ i ∧ i ≤ 10 then some (xtimes (i - 1) 0x01) else none)
    ∧ sbox 0 = sboxAffine 0 ∧ ∀ x : Byte, x ≠ 0 → ∃ b, gfMul x b = 1 ∧ sbox x = sboxAffine b

/-! ## Isolation -/

/-- R17, R169, U4, U14: what a command does depends on no slot at index len and above and on no part of RK while KSV = 0:
from two states that differ only there, it gives two states that differ only there, or the same fault. Such states have one
observation, and two states have one observation exactly where the components of R169's tuple agree. -/
def Obligations.CommandsIgnoreUnobservableState : Prop :=
  (∀ (i : Instr) (s t : State), SameValues s t → SameAnswer (exec i s) (exec i t))
    ∧ (∀ s t : State, SameValues s t → s.observe = t.observe)
    ∧ ∀ s t : State, s.observe = t.observe ↔ SameObservation s t
end

