-- ==== Sys2Proof/Laws/Memory.lean ====
section
/-! SUPPORT. The laws of one symbol array: read after write, and that every operation keeps the canonical form. -/

namespace Sys2Proof.Machine

theorem Memory.read_write (m : Memory) (i j : Nat) (v : Byte) :
    (m.write i v).read j = if j = i then some v else m.read j := by
  induction m with
  | nil => simp [Memory.write, Memory.read, eq_comm]
  | cons c m ih =>
    obtain ⟨a, u⟩ := c
    simp only [Memory.write]
    split
    · simp [Memory.read, eq_comm]
    · split
      · rename_i heq
        subst heq
        simp only [Memory.read, eq_comm (a := j)]
        split <;> rfl
      · simp only [Memory.read, ih]
        split
        · rename_i hij ha
          have hne : j ≠ i := fun e => hij (e ▸ ha.symm)
          rw [if_neg hne]
        · rfl

@[simp] theorem Memory.read_write_same (m : Memory) (i : Nat) (v : Byte) : (m.write i v).read i = some v := by
  simp [Memory.read_write]

theorem Memory.read_write_other (m : Memory) {i j : Nat} (v : Byte) (h : j ≠ i) :
    (m.write i v).read j = m.read j := by
  simp [Memory.read_write, h]

/-- Reading after a sequence was stored: the new symbol inside the stored range, the old contents outside it. -/
theorem Memory.read_writeSeq (q : List Byte) (m : Memory) (i j : Nat) :
    (m.writeSeq i q).read j = if i ≤ j ∧ j < i + q.length then q[j - i]? else m.read j := by
  induction q generalizing m i with
  | nil =>
    have : ¬(i ≤ j ∧ j < i + ([] : List Byte).length) := by simp
    rw [if_neg this]; rfl
  | cons v q ih =>
    rw [Memory.writeSeq, ih, Memory.read_write]
    simp only [List.length_cons]
    by_cases h1 : i + 1 ≤ j ∧ j < i + 1 + q.length
    · have h2 : i ≤ j ∧ j < i + (q.length + 1) := by omega
      have h3 : j - i = (j - (i + 1)) + 1 := by omega
      rw [if_pos h1, if_pos h2, h3]; rfl
    · rw [if_neg h1]
      by_cases h4 : j = i
      · subst h4
        rw [if_pos rfl, if_pos (by omega)]; simp
      · rw [if_neg h4, if_neg (by omega)]

/-- A cell of the written array is the new one or an old one. -/
theorem Memory.mem_write {m : Memory} {i : Nat} {v : Byte} {c : Host.Cell} (h : c ∈ m.write i v) :
    c = (i, v) ∨ c ∈ m := by
  induction m with
  | nil => simpa [Memory.write] using h
  | cons x m ih =>
    obtain ⟨a, u⟩ := x
    simp only [Memory.write] at h
    split at h
    · simpa using h
    · split at h
      · rcases List.mem_cons.1 h with h | h
        · exact .inl h
        · exact .inr (List.mem_cons_of_mem _ h)
      · rcases List.mem_cons.1 h with h | h
        · exact .inr (by simp [h])
        · exact (ih h).imp id (List.mem_cons_of_mem _)

/-- A write keeps the canonical form. -/
theorem Memory.wf_write {m : Memory} (h : m.wf) (i : Nat) (v : Byte) : (m.write i v).wf := by
  induction m with
  | nil => simp [Memory.write]
  | cons x m ih =>
    obtain ⟨a, u⟩ := x
    have hx := List.pairwise_cons.1 h
    simp only [Memory.write]
    split
    · rename_i hlt
      refine List.pairwise_cons.2 ⟨fun c hc => ?_, h⟩
      rcases List.mem_cons.1 hc with rfl | hc
      · exact hlt
      · exact Nat.lt_trans hlt (hx.1 c hc)
    · split
      · rename_i heq
        subst heq
        exact List.pairwise_cons.2 ⟨hx.1, hx.2⟩
      · refine List.pairwise_cons.2 ⟨fun c hc => ?_, ih hx.2⟩
        rcases Memory.mem_write hc with rfl | hc
        · simp only; omega
        · exact hx.1 c hc

/-- Storing a sequence keeps the canonical form. -/
theorem Memory.wf_writeSeq (q : List Byte) {m : Memory} (h : m.wf) (i : Nat) : (m.writeSeq i q).wf := by
  induction q generalizing m i with
  | nil => exact h
  | cons v q ih => exact ih (Memory.wf_write h i v) (i + 1)

/-- A write below a bound keeps every index below it. -/
theorem Memory.write_below {m : Memory} {n i : Nat} (h : ∀ c ∈ m, c.1 < n) (hi : i < n) (v : Byte) :
    ∀ c ∈ m.write i v, c.1 < n := by
  intro c hc
  rcases Memory.mem_write hc with rfl | hc
  · exact hi
  · exact h c hc

/-- Storing a sequence below a bound keeps every index below it. -/
theorem Memory.writeSeq_below (q : List Byte) {m : Memory} {n i : Nat} (h : ∀ c ∈ m, c.1 < n)
    (hi : i + q.length ≤ n) : ∀ c ∈ m.writeSeq i q, c.1 < n := by
  induction q generalizing m i with
  | nil => exact h
  | cons v q ih =>
    simp only [List.length_cons] at hi
    exact ih (Memory.write_below h (by omega) v) (by omega)

/-- In canonical form a defined slot is exactly a listed cell. -/
theorem Memory.read_eq_some {m : Memory} (h : m.wf) (i : Nat) (v : Byte) : m.read i = some v ↔ (i, v) ∈ m := by
  induction m with
  | nil => simp [Memory.read]
  | cons x m ih =>
    obtain ⟨a, u⟩ := x
    have hx := List.pairwise_cons.1 h
    by_cases ha : a = i
    · subst ha
      simp only [Memory.read, if_pos, Option.some.injEq, List.mem_cons, Prod.mk.injEq, true_and]
      refine ⟨fun e => .inl e.symm, fun e => e.elim Eq.symm fun hm => ?_⟩
      exact absurd (hx.1 _ hm) (Nat.lt_irrefl _)
    · simp only [Memory.read, if_neg ha, ih hx.2, List.mem_cons, Prod.mk.injEq]
      exact ⟨.inr, fun e => e.elim (fun e => absurd e.1.symm ha) id⟩

/-- Two arrays in canonical form that read the same everywhere are the same data. -/
theorem Memory.eq_of_read_eq {m m' : Memory} (h : m.wf) (h' : m'.wf) (hr : ∀ i, m.read i = m'.read i) : m = m' := by
  have hmem : ∀ c, c ∈ m ↔ c ∈ m' := fun c => by
    rw [← Memory.read_eq_some h c.1 c.2, ← Memory.read_eq_some h' c.1 c.2, hr]
  have hp : m.Perm m' := (List.perm_ext_iff_of_nodup
    (List.Pairwise.imp (fun h e => by subst e; exact Nat.lt_irrefl _ h) h)
    (List.Pairwise.imp (fun h e => by subst e; exact Nat.lt_irrefl _ h) h')).2 hmem
  exact hp.eq_of_pairwise (fun a b _ _ h1 h2 => absurd (Nat.lt_trans h1 h2) (Nat.lt_irrefl _)) h h'

end Sys2Proof.Machine
end

