-- ==== Sys2Proof/Laws/Operands.lean ====
section
/-! SUPPORT. What reading an operand can do (R8, R57), said once. -/

namespace Sys2Proof.Machine

/-- The slot read is defined, or UNDEF_READ decides. -/
theorem readSlot_eq_some {m : Memory} {i d : Nat} {v : Byte} {d' : Nat} (h : readSlot m i d = some (v, d')) :
    (m.read i = some v ∧ d' = d) ∨
      (m.read i = none ∧ Config.undefRead = .draw ∧ v = Config.freeByte d ∧ d' = d + 1) := by
  unfold readSlot at h
  split at h
  · rename_i w hw
    simp only [Option.some.injEq, Prod.mk.injEq] at h
    exact .inl ⟨h.1 ▸ hw, h.2.symm⟩
  · rename_i hn
    split at h
    · exact absurd h (by simp)
    · rename_i hd
      simp only [Option.some.injEq, Prod.mk.injEq] at h
      exact .inr ⟨hn, hd, h.1.symm, h.2.symm⟩

/-- A read faults only at an undefined slot where UNDEF_READ is `fault`. -/
theorem readSlot_eq_none {m : Memory} {i d : Nat} (h : readSlot m i d = none) :
    m.read i = none ∧ Config.undefRead = .fault := by
  unfold readSlot at h
  split at h
  · exact absurd h (by simp)
  · rename_i hn
    split at h
    · rename_i hf; exact ⟨hn, hf⟩
    · exact absurd h (by simp)

@[simp] theorem readSlot_defined {m : Memory} {i d : Nat} {v : Byte} (h : m.read i = some v) :
    readSlot m i d = some (v, d) := by
  simp [readSlot, h]

/-- A sequence that could be read: its length, its defined symbols, and that the draws only grow. -/
theorem readSeq_ok {m : Memory} {n i d d' : Nat} {q : List Byte} (h : readSeq m i n d = .ok (q, d')) :
    q.length = n ∧ d ≤ d' ∧ ∀ k v, k < n → m.read (i + k) = some v → q[k]? = some v := by
  induction n generalizing i d d' q with
  | zero =>
    simp only [readSeq, Except.ok.injEq, Prod.mk.injEq] at h
    exact ⟨by simp [← h.1], Nat.le_of_eq h.2, fun k v hk => absurd hk (Nat.not_lt_zero k)⟩
  | succ n ih =>
    simp only [readSeq] at h
    split at h
    · exact absurd h (by simp)
    · rename_i v d1 hs
      split at h
      · exact absurd h (by simp)
      · rename_i q1 d2 hq
        simp only [Except.ok.injEq, Prod.mk.injEq] at h
        obtain ⟨rfl, rfl⟩ := h
        obtain ⟨hl, hd, hv⟩ := ih hq
        refine ⟨by simp [hl], ?_, ?_⟩
        · rcases readSlot_eq_some hs with ⟨-, rfl⟩ | ⟨-, -, -, rfl⟩ <;> omega
        · intro k w hk hr
          cases k with
          | zero =>
            rcases readSlot_eq_some hs with ⟨h1, -⟩ | ⟨h1, -⟩
            · simp only [Nat.add_zero] at hr
              simpa using h1.symm.trans hr
            · simp only [Nat.add_zero] at hr
              exact absurd (h1.symm.trans hr) (by simp)
          | succ k =>
            have : i + 1 + k = i + (k + 1) := by omega
            simpa using hv k w (by omega) (this ▸ hr)

/-- Where every slot of a range is defined, the read gives the stored symbols and draws nothing. -/
theorem readSeq_defined {m : Memory} {i : Nat} {q : List Byte} (d : Nat)
    (h : ∀ k, k < q.length → m.read (i + k) = q[k]?) : readSeq m i q.length d = .ok (q, d) := by
  induction q generalizing i with
  | nil => rfl
  | cons v q ih =>
    have h0 : m.read i = some v := by simpa using h 0 (by simp)
    have h1 : readSeq m (i + 1) q.length d = .ok (q, d) := ih fun k hk => by
      have := h (k + 1) (by simpa using hk)
      simpa [Nat.add_assoc, Nat.add_comm, Nat.add_left_comm] using this
    simp [readSeq, readSlot_defined h0, h1]

/-- A read that stops names an undefined slot of the range, and UNDEF_READ is `fault`. -/
theorem readSeq_error {m : Memory} {n i d j : Nat} (h : readSeq m i n d = .error j) :
    i ≤ j ∧ j < i + n ∧ m.read j = none ∧ Config.undefRead = .fault := by
  induction n generalizing i d with
  | zero => exact absurd h (by simp [readSeq])
  | succ n ih =>
    simp only [readSeq] at h
    split at h
    · rename_i hs
      obtain rfl : i = j := by simpa using h
      exact ⟨Nat.le_refl _, by omega, (readSlot_eq_none hs).1, (readSlot_eq_none hs).2⟩
    · split at h
      · rename_i hq
        obtain rfl := by simpa using h
        obtain ⟨h1, h2, h3⟩ := ih hq
        exact ⟨by omega, by omega, h3⟩
      · exact absurd h (by simp)

/-- What a command that goes on after reading an operand has read. -/
theorem withSyms_next {mn : String} {b : BufNum} {s t : State} {k : List Byte → State → Result}
    (h : withSyms mn b s k = .next t) :
    ∃ q d, (s.buf b).syms s.draws = .ok (q, d) ∧ k q (s.withDraws d) = .next t := by
  unfold withSyms at h
  split at h
  · exact absurd h (by simp)
  · rename_i q d hq; exact ⟨q, d, hq, h⟩

/-- The operand could be read: the command goes on with its symbols. -/
theorem withSyms_ok {mn : String} {b : BufNum} {s : State} {k : List Byte → State → Result} {q : List Byte} {d : Nat}
    (h : (s.buf b).syms s.draws = .ok (q, d)) : withSyms mn b s k = k q (s.withDraws d) := by
  simp [withSyms, h]

/-- A command that faults met an undefined slot of its operand, or faults later. -/
theorem withSyms_fault {mn : String} {b : BufNum} {s : State} {k : List Byte → State → Result} {r : Fault}
    (h : withSyms mn b s k = .fault r) :
    (∃ i, r = .undefinedOperand mn b i ∧ (s.buf b).syms s.draws = .error i) ∨
      ∃ q d, (s.buf b).syms s.draws = .ok (q, d) ∧ k q (s.withDraws d) = .fault r := by
  unfold withSyms at h
  split at h
  · rename_i i hi
    obtain rfl := by simpa using h
    exact .inl ⟨i, rfl, hi⟩
  · rename_i q d hq; exact .inr ⟨q, d, hq, h⟩

end Sys2Proof.Machine
end

