-- ==== Sys2Proof/Laws/State.lean ====
section
/-! SUPPORT. One lemma per field per named update of the state, true by rfl, so that no later proof unfolds an update. -/

namespace Sys2Proof.Machine

/-! ### `State.complete` -/

@[simp] theorem State.complete_ie (s : State) (c : Code) : (s.complete c).ie = s.ie := rfl
@[simp] theorem State.complete_busy (s : State) (c : Code) : (s.complete c).busy = false := rfl
@[simp] theorem State.complete_done (s : State) (c : Code) : (s.complete c).done = true := rfl
@[simp] theorem State.complete_ovr (s : State) (c : Code) : (s.complete c).ovr = s.ovr := rfl
@[simp] theorem State.complete_perr (s : State) (c : Code) : (s.complete c).perr = s.perr := rfl
@[simp] theorem State.complete_errcode (s : State) (c : Code) : (s.complete c).errcode = c.num := rfl
@[simp] theorem State.complete_cmd (s : State) (c : Code) : (s.complete c).cmd = s.cmd := rfl
@[simp] theorem State.complete_arg0 (s : State) (c : Code) : (s.complete c).arg0 = s.arg0 := rfl
@[simp] theorem State.complete_arg1 (s : State) (c : Code) : (s.complete c).arg1 = s.arg1 := rfl
@[simp] theorem State.complete_result (s : State) (c : Code) : (s.complete c).result = s.result := rfl
@[simp] theorem State.complete_bsel (s : State) (c : Code) : (s.complete c).bsel = s.bsel := rfl
@[simp] theorem State.complete_bidx (s : State) (c : Code) : (s.complete c).bidx = s.bidx := rfl
@[simp] theorem State.complete_bufs (s : State) (c : Code) : (s.complete c).bufs = s.bufs := rfl
@[simp] theorem State.complete_st (s : State) (c : Code) : (s.complete c).st = s.st := rfl
@[simp] theorem State.complete_ksv (s : State) (c : Code) : (s.complete c).ksv = s.ksv := rfl
@[simp] theorem State.complete_rk (s : State) (c : Code) : (s.complete c).rk = s.rk := rfl
@[simp] theorem State.complete_schedule (s : State) (c : Code) : (s.complete c).schedule = s.schedule := rfl
@[simp] theorem State.complete_rdata (s : State) (c : Code) : (s.complete c).rdata = s.rdata := rfl
@[simp] theorem State.complete_draws (s : State) (c : Code) : (s.complete c).draws = s.draws := rfl
@[simp] theorem State.complete_buf (s : State) (c : Code) (x : BufNum) : (s.complete c).buf x = s.buf x := rfl
@[simp] theorem State.complete_slot (s : State) (c : Code) (x : BufNum) (i : Nat) : (s.complete c).slot x i = s.slot x i := rfl

/-! ### `State.accept` -/

@[simp] theorem State.accept_ie (s : State) (v : Word) : (s.accept v).ie = s.ie := rfl
@[simp] theorem State.accept_busy (s : State) (v : Word) : (s.accept v).busy = true := rfl
@[simp] theorem State.accept_done (s : State) (v : Word) : (s.accept v).done = false := rfl
@[simp] theorem State.accept_ovr (s : State) (v : Word) : (s.accept v).ovr = s.ovr := rfl
@[simp] theorem State.accept_perr (s : State) (v : Word) : (s.accept v).perr = s.perr := rfl
@[simp] theorem State.accept_errcode (s : State) (v : Word) : (s.accept v).errcode = 0 := rfl
@[simp] theorem State.accept_cmd (s : State) (v : Word) : (s.accept v).cmd = v := rfl
@[simp] theorem State.accept_arg0 (s : State) (v : Word) : (s.accept v).arg0 = s.arg0 := rfl
@[simp] theorem State.accept_arg1 (s : State) (v : Word) : (s.accept v).arg1 = s.arg1 := rfl
@[simp] theorem State.accept_result (s : State) (v : Word) : (s.accept v).result = s.result := rfl
@[simp] theorem State.accept_bsel (s : State) (v : Word) : (s.accept v).bsel = s.bsel := rfl
@[simp] theorem State.accept_bidx (s : State) (v : Word) : (s.accept v).bidx = s.bidx := rfl
@[simp] theorem State.accept_bufs (s : State) (v : Word) : (s.accept v).bufs = s.bufs := rfl
@[simp] theorem State.accept_st (s : State) (v : Word) : (s.accept v).st = s.st := rfl
@[simp] theorem State.accept_ksv (s : State) (v : Word) : (s.accept v).ksv = s.ksv := rfl
@[simp] theorem State.accept_rk (s : State) (v : Word) : (s.accept v).rk = s.rk := rfl
@[simp] theorem State.accept_schedule (s : State) (v : Word) : (s.accept v).schedule = s.schedule := rfl
@[simp] theorem State.accept_rdata (s : State) (v : Word) : (s.accept v).rdata = s.rdata := rfl
@[simp] theorem State.accept_draws (s : State) (v : Word) : (s.accept v).draws = s.draws := rfl
@[simp] theorem State.accept_buf (s : State) (v : Word) (x : BufNum) : (s.accept v).buf x = s.buf x := rfl
@[simp] theorem State.accept_slot (s : State) (v : Word) (x : BufNum) (i : Nat) : (s.accept v).slot x i = s.slot x i := rfl

/-! ### `State.setBuf` -/

@[simp] theorem State.setBuf_ie (s : State) (b : BufNum) (x : Buffer) : (s.setBuf b x).ie = s.ie := rfl
@[simp] theorem State.setBuf_busy (s : State) (b : BufNum) (x : Buffer) : (s.setBuf b x).busy = s.busy := rfl
@[simp] theorem State.setBuf_done (s : State) (b : BufNum) (x : Buffer) : (s.setBuf b x).done = s.done := rfl
@[simp] theorem State.setBuf_ovr (s : State) (b : BufNum) (x : Buffer) : (s.setBuf b x).ovr = s.ovr := rfl
@[simp] theorem State.setBuf_perr (s : State) (b : BufNum) (x : Buffer) : (s.setBuf b x).perr = s.perr := rfl
@[simp] theorem State.setBuf_errcode (s : State) (b : BufNum) (x : Buffer) : (s.setBuf b x).errcode = s.errcode := rfl
@[simp] theorem State.setBuf_cmd (s : State) (b : BufNum) (x : Buffer) : (s.setBuf b x).cmd = s.cmd := rfl
@[simp] theorem State.setBuf_arg0 (s : State) (b : BufNum) (x : Buffer) : (s.setBuf b x).arg0 = s.arg0 := rfl
@[simp] theorem State.setBuf_arg1 (s : State) (b : BufNum) (x : Buffer) : (s.setBuf b x).arg1 = s.arg1 := rfl
@[simp] theorem State.setBuf_result (s : State) (b : BufNum) (x : Buffer) : (s.setBuf b x).result = s.result := rfl
@[simp] theorem State.setBuf_bsel (s : State) (b : BufNum) (x : Buffer) : (s.setBuf b x).bsel = s.bsel := rfl
@[simp] theorem State.setBuf_bidx (s : State) (b : BufNum) (x : Buffer) : (s.setBuf b x).bidx = s.bidx := rfl
@[simp] theorem State.setBuf_bufs (s : State) (b : BufNum) (x : Buffer) : (s.setBuf b x).bufs = s.bufs.set b.val x b.isLt := rfl
@[simp] theorem State.setBuf_st (s : State) (b : BufNum) (x : Buffer) : (s.setBuf b x).st = s.st := rfl
@[simp] theorem State.setBuf_ksv (s : State) (b : BufNum) (x : Buffer) : (s.setBuf b x).ksv = s.ksv := rfl
@[simp] theorem State.setBuf_rk (s : State) (b : BufNum) (x : Buffer) : (s.setBuf b x).rk = s.rk := rfl
@[simp] theorem State.setBuf_schedule (s : State) (b : BufNum) (x : Buffer) : (s.setBuf b x).schedule = s.schedule := rfl
@[simp] theorem State.setBuf_rdata (s : State) (b : BufNum) (x : Buffer) : (s.setBuf b x).rdata = s.rdata := rfl
@[simp] theorem State.setBuf_draws (s : State) (b : BufNum) (x : Buffer) : (s.setBuf b x).draws = s.draws := rfl

/-! ### `State.bufWrite` -/

@[simp] theorem State.bufWrite_ie (s : State) (b : BufNum) (e : Enc) (q : List Byte) : (s.bufWrite b e q).ie = s.ie := rfl
@[simp] theorem State.bufWrite_busy (s : State) (b : BufNum) (e : Enc) (q : List Byte) : (s.bufWrite b e q).busy = s.busy := rfl
@[simp] theorem State.bufWrite_done (s : State) (b : BufNum) (e : Enc) (q : List Byte) : (s.bufWrite b e q).done = s.done := rfl
@[simp] theorem State.bufWrite_ovr (s : State) (b : BufNum) (e : Enc) (q : List Byte) : (s.bufWrite b e q).ovr = s.ovr := rfl
@[simp] theorem State.bufWrite_perr (s : State) (b : BufNum) (e : Enc) (q : List Byte) : (s.bufWrite b e q).perr = s.perr := rfl
@[simp] theorem State.bufWrite_errcode (s : State) (b : BufNum) (e : Enc) (q : List Byte) : (s.bufWrite b e q).errcode = s.errcode := rfl
@[simp] theorem State.bufWrite_cmd (s : State) (b : BufNum) (e : Enc) (q : List Byte) : (s.bufWrite b e q).cmd = s.cmd := rfl
@[simp] theorem State.bufWrite_arg0 (s : State) (b : BufNum) (e : Enc) (q : List Byte) : (s.bufWrite b e q).arg0 = s.arg0 := rfl
@[simp] theorem State.bufWrite_arg1 (s : State) (b : BufNum) (e : Enc) (q : List Byte) : (s.bufWrite b e q).arg1 = s.arg1 := rfl
@[simp] theorem State.bufWrite_result (s : State) (b : BufNum) (e : Enc) (q : List Byte) : (s.bufWrite b e q).result = s.result := rfl
@[simp] theorem State.bufWrite_bsel (s : State) (b : BufNum) (e : Enc) (q : List Byte) : (s.bufWrite b e q).bsel = s.bsel := rfl
@[simp] theorem State.bufWrite_bidx (s : State) (b : BufNum) (e : Enc) (q : List Byte) : (s.bufWrite b e q).bidx = s.bidx := rfl
@[simp] theorem State.bufWrite_st (s : State) (b : BufNum) (e : Enc) (q : List Byte) : (s.bufWrite b e q).st = s.st := rfl
@[simp] theorem State.bufWrite_ksv (s : State) (b : BufNum) (e : Enc) (q : List Byte) : (s.bufWrite b e q).ksv = s.ksv := rfl
@[simp] theorem State.bufWrite_rk (s : State) (b : BufNum) (e : Enc) (q : List Byte) : (s.bufWrite b e q).rk = s.rk := rfl
@[simp] theorem State.bufWrite_schedule (s : State) (b : BufNum) (e : Enc) (q : List Byte) : (s.bufWrite b e q).schedule = s.schedule := rfl
@[simp] theorem State.bufWrite_rdata (s : State) (b : BufNum) (e : Enc) (q : List Byte) : (s.bufWrite b e q).rdata = s.rdata := rfl
@[simp] theorem State.bufWrite_draws (s : State) (b : BufNum) (e : Enc) (q : List Byte) : (s.bufWrite b e q).draws = s.draws := rfl

/-! ### `State.withDraws` -/

@[simp] theorem State.withDraws_ie (s : State) (d : Nat) : (s.withDraws d).ie = s.ie := rfl
@[simp] theorem State.withDraws_busy (s : State) (d : Nat) : (s.withDraws d).busy = s.busy := rfl
@[simp] theorem State.withDraws_done (s : State) (d : Nat) : (s.withDraws d).done = s.done := rfl
@[simp] theorem State.withDraws_ovr (s : State) (d : Nat) : (s.withDraws d).ovr = s.ovr := rfl
@[simp] theorem State.withDraws_perr (s : State) (d : Nat) : (s.withDraws d).perr = s.perr := rfl
@[simp] theorem State.withDraws_errcode (s : State) (d : Nat) : (s.withDraws d).errcode = s.errcode := rfl
@[simp] theorem State.withDraws_cmd (s : State) (d : Nat) : (s.withDraws d).cmd = s.cmd := rfl
@[simp] theorem State.withDraws_arg0 (s : State) (d : Nat) : (s.withDraws d).arg0 = s.arg0 := rfl
@[simp] theorem State.withDraws_arg1 (s : State) (d : Nat) : (s.withDraws d).arg1 = s.arg1 := rfl
@[simp] theorem State.withDraws_result (s : State) (d : Nat) : (s.withDraws d).result = s.result := rfl
@[simp] theorem State.withDraws_bsel (s : State) (d : Nat) : (s.withDraws d).bsel = s.bsel := rfl
@[simp] theorem State.withDraws_bidx (s : State) (d : Nat) : (s.withDraws d).bidx = s.bidx := rfl
@[simp] theorem State.withDraws_bufs (s : State) (d : Nat) : (s.withDraws d).bufs = s.bufs := rfl
@[simp] theorem State.withDraws_st (s : State) (d : Nat) : (s.withDraws d).st = s.st := rfl
@[simp] theorem State.withDraws_ksv (s : State) (d : Nat) : (s.withDraws d).ksv = s.ksv := rfl
@[simp] theorem State.withDraws_rk (s : State) (d : Nat) : (s.withDraws d).rk = s.rk := rfl
@[simp] theorem State.withDraws_schedule (s : State) (d : Nat) : (s.withDraws d).schedule = s.schedule := rfl
@[simp] theorem State.withDraws_rdata (s : State) (d : Nat) : (s.withDraws d).rdata = s.rdata := rfl
@[simp] theorem State.withDraws_draws (s : State) (d : Nat) : (s.withDraws d).draws = d := rfl
@[simp] theorem State.withDraws_buf (s : State) (d : Nat) (x : BufNum) : (s.withDraws d).buf x = s.buf x := rfl
@[simp] theorem State.withDraws_slot (s : State) (d : Nat) (x : BufNum) (i : Nat) : (s.withDraws d).slot x i = s.slot x i := rfl

/-! ### `State.setKeys` -/

@[simp] theorem State.setKeys_ie (s : State) (w : KeyTable) : (s.setKeys w).ie = s.ie := rfl
@[simp] theorem State.setKeys_busy (s : State) (w : KeyTable) : (s.setKeys w).busy = s.busy := rfl
@[simp] theorem State.setKeys_done (s : State) (w : KeyTable) : (s.setKeys w).done = s.done := rfl
@[simp] theorem State.setKeys_ovr (s : State) (w : KeyTable) : (s.setKeys w).ovr = s.ovr := rfl
@[simp] theorem State.setKeys_perr (s : State) (w : KeyTable) : (s.setKeys w).perr = s.perr := rfl
@[simp] theorem State.setKeys_errcode (s : State) (w : KeyTable) : (s.setKeys w).errcode = s.errcode := rfl
@[simp] theorem State.setKeys_cmd (s : State) (w : KeyTable) : (s.setKeys w).cmd = s.cmd := rfl
@[simp] theorem State.setKeys_arg0 (s : State) (w : KeyTable) : (s.setKeys w).arg0 = s.arg0 := rfl
@[simp] theorem State.setKeys_arg1 (s : State) (w : KeyTable) : (s.setKeys w).arg1 = s.arg1 := rfl
@[simp] theorem State.setKeys_result (s : State) (w : KeyTable) : (s.setKeys w).result = s.result := rfl
@[simp] theorem State.setKeys_bsel (s : State) (w : KeyTable) : (s.setKeys w).bsel = s.bsel := rfl
@[simp] theorem State.setKeys_bidx (s : State) (w : KeyTable) : (s.setKeys w).bidx = s.bidx := rfl
@[simp] theorem State.setKeys_bufs (s : State) (w : KeyTable) : (s.setKeys w).bufs = s.bufs := rfl
@[simp] theorem State.setKeys_st (s : State) (w : KeyTable) : (s.setKeys w).st = s.st := rfl
@[simp] theorem State.setKeys_ksv (s : State) (w : KeyTable) : (s.setKeys w).ksv = true := rfl
@[simp] theorem State.setKeys_rk (s : State) (w : KeyTable) : (s.setKeys w).rk = w := rfl
@[simp] theorem State.setKeys_schedule (s : State) (w : KeyTable) : (s.setKeys w).schedule = s.schedule := rfl
@[simp] theorem State.setKeys_rdata (s : State) (w : KeyTable) : (s.setKeys w).rdata = s.rdata := rfl
@[simp] theorem State.setKeys_draws (s : State) (w : KeyTable) : (s.setKeys w).draws = s.draws := rfl
@[simp] theorem State.setKeys_buf (s : State) (w : KeyTable) (x : BufNum) : (s.setKeys w).buf x = s.buf x := rfl
@[simp] theorem State.setKeys_slot (s : State) (w : KeyTable) (x : BufNum) (i : Nat) : (s.setKeys w).slot x i = s.slot x i := rfl

/-! ### `State.setSt` -/

@[simp] theorem State.setSt_ie (s : State) (b : Block) : (s.setSt b).ie = s.ie := rfl
@[simp] theorem State.setSt_busy (s : State) (b : Block) : (s.setSt b).busy = s.busy := rfl
@[simp] theorem State.setSt_done (s : State) (b : Block) : (s.setSt b).done = s.done := rfl
@[simp] theorem State.setSt_ovr (s : State) (b : Block) : (s.setSt b).ovr = s.ovr := rfl
@[simp] theorem State.setSt_perr (s : State) (b : Block) : (s.setSt b).perr = s.perr := rfl
@[simp] theorem State.setSt_errcode (s : State) (b : Block) : (s.setSt b).errcode = s.errcode := rfl
@[simp] theorem State.setSt_cmd (s : State) (b : Block) : (s.setSt b).cmd = s.cmd := rfl
@[simp] theorem State.setSt_arg0 (s : State) (b : Block) : (s.setSt b).arg0 = s.arg0 := rfl
@[simp] theorem State.setSt_arg1 (s : State) (b : Block) : (s.setSt b).arg1 = s.arg1 := rfl
@[simp] theorem State.setSt_result (s : State) (b : Block) : (s.setSt b).result = s.result := rfl
@[simp] theorem State.setSt_bsel (s : State) (b : Block) : (s.setSt b).bsel = s.bsel := rfl
@[simp] theorem State.setSt_bidx (s : State) (b : Block) : (s.setSt b).bidx = s.bidx := rfl
@[simp] theorem State.setSt_bufs (s : State) (b : Block) : (s.setSt b).bufs = s.bufs := rfl
@[simp] theorem State.setSt_st (s : State) (b : Block) : (s.setSt b).st = b := rfl
@[simp] theorem State.setSt_ksv (s : State) (b : Block) : (s.setSt b).ksv = s.ksv := rfl
@[simp] theorem State.setSt_rk (s : State) (b : Block) : (s.setSt b).rk = s.rk := rfl
@[simp] theorem State.setSt_schedule (s : State) (b : Block) : (s.setSt b).schedule = s.schedule := rfl
@[simp] theorem State.setSt_rdata (s : State) (b : Block) : (s.setSt b).rdata = s.rdata := rfl
@[simp] theorem State.setSt_draws (s : State) (b : Block) : (s.setSt b).draws = s.draws := rfl
@[simp] theorem State.setSt_buf (s : State) (b : Block) (x : BufNum) : (s.setSt b).buf x = s.buf x := rfl
@[simp] theorem State.setSt_slot (s : State) (b : Block) (x : BufNum) (i : Nat) : (s.setSt b).slot x i = s.slot x i := rfl

/-! ### `State.advance` -/

@[simp] theorem State.advance_ie (s : State) : (s.advance).ie = s.ie := rfl
@[simp] theorem State.advance_busy (s : State) : (s.advance).busy = s.busy := rfl
@[simp] theorem State.advance_done (s : State) : (s.advance).done = s.done := rfl
@[simp] theorem State.advance_ovr (s : State) : (s.advance).ovr = s.ovr := rfl
@[simp] theorem State.advance_perr (s : State) : (s.advance).perr = s.perr := rfl
@[simp] theorem State.advance_errcode (s : State) : (s.advance).errcode = s.errcode := rfl
@[simp] theorem State.advance_cmd (s : State) : (s.advance).cmd = s.cmd := rfl
@[simp] theorem State.advance_arg0 (s : State) : (s.advance).arg0 = s.arg0 := rfl
@[simp] theorem State.advance_arg1 (s : State) : (s.advance).arg1 = s.arg1 := rfl
@[simp] theorem State.advance_result (s : State) : (s.advance).result = s.result := rfl
@[simp] theorem State.advance_bsel (s : State) : (s.advance).bsel = s.bsel := rfl
@[simp] theorem State.advance_bidx (s : State) : (s.advance).bidx = s.bidx := rfl
@[simp] theorem State.advance_bufs (s : State) : (s.advance).bufs = s.bufs := rfl
@[simp] theorem State.advance_st (s : State) : (s.advance).st = s.st := rfl
@[simp] theorem State.advance_ksv (s : State) : (s.advance).ksv = s.ksv := rfl
@[simp] theorem State.advance_rk (s : State) : (s.advance).rk = s.rk := rfl
@[simp] theorem State.advance_schedule (s : State) : (s.advance).schedule = s.schedule.tail := rfl
@[simp] theorem State.advance_rdata (s : State) : (s.advance).rdata = s.rdata := rfl
@[simp] theorem State.advance_draws (s : State) : (s.advance).draws = s.draws := rfl
@[simp] theorem State.advance_buf (s : State) (x : BufNum) : (s.advance).buf x = s.buf x := rfl
@[simp] theorem State.advance_slot (s : State) (x : BufNum) (i : Nat) : (s.advance).slot x i = s.slot x i := rfl

/-! ### `State.answer` -/

@[simp] theorem State.answer_ie (s : State) (v : Word) : (s.answer v).ie = s.ie := rfl
@[simp] theorem State.answer_busy (s : State) (v : Word) : (s.answer v).busy = s.busy := rfl
@[simp] theorem State.answer_done (s : State) (v : Word) : (s.answer v).done = s.done := rfl
@[simp] theorem State.answer_ovr (s : State) (v : Word) : (s.answer v).ovr = s.ovr := rfl
@[simp] theorem State.answer_perr (s : State) (v : Word) : (s.answer v).perr = s.perr := rfl
@[simp] theorem State.answer_errcode (s : State) (v : Word) : (s.answer v).errcode = s.errcode := rfl
@[simp] theorem State.answer_cmd (s : State) (v : Word) : (s.answer v).cmd = s.cmd := rfl
@[simp] theorem State.answer_arg0 (s : State) (v : Word) : (s.answer v).arg0 = s.arg0 := rfl
@[simp] theorem State.answer_arg1 (s : State) (v : Word) : (s.answer v).arg1 = s.arg1 := rfl
@[simp] theorem State.answer_result (s : State) (v : Word) : (s.answer v).result = s.result := rfl
@[simp] theorem State.answer_bsel (s : State) (v : Word) : (s.answer v).bsel = s.bsel := rfl
@[simp] theorem State.answer_bidx (s : State) (v : Word) : (s.answer v).bidx = s.bidx := rfl
@[simp] theorem State.answer_bufs (s : State) (v : Word) : (s.answer v).bufs = s.bufs := rfl
@[simp] theorem State.answer_st (s : State) (v : Word) : (s.answer v).st = s.st := rfl
@[simp] theorem State.answer_ksv (s : State) (v : Word) : (s.answer v).ksv = s.ksv := rfl
@[simp] theorem State.answer_rk (s : State) (v : Word) : (s.answer v).rk = s.rk := rfl
@[simp] theorem State.answer_schedule (s : State) (v : Word) : (s.answer v).schedule = s.schedule := rfl
@[simp] theorem State.answer_rdata (s : State) (v : Word) : (s.answer v).rdata = some v := rfl
@[simp] theorem State.answer_draws (s : State) (v : Word) : (s.answer v).draws = s.draws := rfl
@[simp] theorem State.answer_buf (s : State) (v : Word) (x : BufNum) : (s.answer v).buf x = s.buf x := rfl
@[simp] theorem State.answer_slot (s : State) (v : Word) (x : BufNum) (i : Nat) : (s.answer v).slot x i = s.slot x i := rfl

/-! ### `State.overrunRead` -/

@[simp] theorem State.overrunRead_ie (s : State) : (s.overrunRead).ie = s.ie := rfl
@[simp] theorem State.overrunRead_busy (s : State) : (s.overrunRead).busy = s.busy := rfl
@[simp] theorem State.overrunRead_done (s : State) : (s.overrunRead).done = s.done := rfl
@[simp] theorem State.overrunRead_ovr (s : State) : (s.overrunRead).ovr = true := rfl
@[simp] theorem State.overrunRead_perr (s : State) : (s.overrunRead).perr = s.perr := rfl
@[simp] theorem State.overrunRead_errcode (s : State) : (s.overrunRead).errcode = s.errcode := rfl
@[simp] theorem State.overrunRead_cmd (s : State) : (s.overrunRead).cmd = s.cmd := rfl
@[simp] theorem State.overrunRead_arg0 (s : State) : (s.overrunRead).arg0 = s.arg0 := rfl
@[simp] theorem State.overrunRead_arg1 (s : State) : (s.overrunRead).arg1 = s.arg1 := rfl
@[simp] theorem State.overrunRead_result (s : State) : (s.overrunRead).result = s.result := rfl
@[simp] theorem State.overrunRead_bsel (s : State) : (s.overrunRead).bsel = s.bsel := rfl
@[simp] theorem State.overrunRead_bidx (s : State) : (s.overrunRead).bidx = s.bidx := rfl
@[simp] theorem State.overrunRead_bufs (s : State) : (s.overrunRead).bufs = s.bufs := rfl
@[simp] theorem State.overrunRead_st (s : State) : (s.overrunRead).st = s.st := rfl
@[simp] theorem State.overrunRead_ksv (s : State) : (s.overrunRead).ksv = s.ksv := rfl
@[simp] theorem State.overrunRead_rk (s : State) : (s.overrunRead).rk = s.rk := rfl
@[simp] theorem State.overrunRead_schedule (s : State) : (s.overrunRead).schedule = s.schedule := rfl
@[simp] theorem State.overrunRead_rdata (s : State) : (s.overrunRead).rdata = some (Config.freeWord s.draws) := rfl
@[simp] theorem State.overrunRead_draws (s : State) : (s.overrunRead).draws = s.draws + 1 := rfl
@[simp] theorem State.overrunRead_buf (s : State) (x : BufNum) : (s.overrunRead).buf x = s.buf x := rfl
@[simp] theorem State.overrunRead_slot (s : State) (x : BufNum) (i : Nat) : (s.overrunRead).slot x i = s.slot x i := rfl

/-! ### `State.overrunWrite` -/

@[simp] theorem State.overrunWrite_ie (s : State) : (s.overrunWrite).ie = s.ie := rfl
@[simp] theorem State.overrunWrite_busy (s : State) : (s.overrunWrite).busy = s.busy := rfl
@[simp] theorem State.overrunWrite_done (s : State) : (s.overrunWrite).done = s.done := rfl
@[simp] theorem State.overrunWrite_ovr (s : State) : (s.overrunWrite).ovr = true := rfl
@[simp] theorem State.overrunWrite_perr (s : State) : (s.overrunWrite).perr = s.perr := rfl
@[simp] theorem State.overrunWrite_errcode (s : State) : (s.overrunWrite).errcode = s.errcode := rfl
@[simp] theorem State.overrunWrite_cmd (s : State) : (s.overrunWrite).cmd = s.cmd := rfl
@[simp] theorem State.overrunWrite_arg0 (s : State) : (s.overrunWrite).arg0 = s.arg0 := rfl
@[simp] theorem State.overrunWrite_arg1 (s : State) : (s.overrunWrite).arg1 = s.arg1 := rfl
@[simp] theorem State.overrunWrite_result (s : State) : (s.overrunWrite).result = s.result := rfl
@[simp] theorem State.overrunWrite_bsel (s : State) : (s.overrunWrite).bsel = s.bsel := rfl
@[simp] theorem State.overrunWrite_bidx (s : State) : (s.overrunWrite).bidx = s.bidx := rfl
@[simp] theorem State.overrunWrite_bufs (s : State) : (s.overrunWrite).bufs = s.bufs := rfl
@[simp] theorem State.overrunWrite_st (s : State) : (s.overrunWrite).st = s.st := rfl
@[simp] theorem State.overrunWrite_ksv (s : State) : (s.overrunWrite).ksv = s.ksv := rfl
@[simp] theorem State.overrunWrite_rk (s : State) : (s.overrunWrite).rk = s.rk := rfl
@[simp] theorem State.overrunWrite_schedule (s : State) : (s.overrunWrite).schedule = s.schedule := rfl
@[simp] theorem State.overrunWrite_rdata (s : State) : (s.overrunWrite).rdata = s.rdata := rfl
@[simp] theorem State.overrunWrite_draws (s : State) : (s.overrunWrite).draws = s.draws := rfl
@[simp] theorem State.overrunWrite_buf (s : State) (x : BufNum) : (s.overrunWrite).buf x = s.buf x := rfl
@[simp] theorem State.overrunWrite_slot (s : State) (x : BufNum) (i : Nat) : (s.overrunWrite).slot x i = s.slot x i := rfl

/-! ### `State.refusePort` -/

@[simp] theorem State.refusePort_ie (s : State) : (s.refusePort).ie = s.ie := rfl
@[simp] theorem State.refusePort_busy (s : State) : (s.refusePort).busy = s.busy := rfl
@[simp] theorem State.refusePort_done (s : State) : (s.refusePort).done = s.done := rfl
@[simp] theorem State.refusePort_ovr (s : State) : (s.refusePort).ovr = s.ovr := rfl
@[simp] theorem State.refusePort_perr (s : State) : (s.refusePort).perr = true := rfl
@[simp] theorem State.refusePort_errcode (s : State) : (s.refusePort).errcode = s.errcode := rfl
@[simp] theorem State.refusePort_cmd (s : State) : (s.refusePort).cmd = s.cmd := rfl
@[simp] theorem State.refusePort_arg0 (s : State) : (s.refusePort).arg0 = s.arg0 := rfl
@[simp] theorem State.refusePort_arg1 (s : State) : (s.refusePort).arg1 = s.arg1 := rfl
@[simp] theorem State.refusePort_result (s : State) : (s.refusePort).result = s.result := rfl
@[simp] theorem State.refusePort_bsel (s : State) : (s.refusePort).bsel = s.bsel := rfl
@[simp] theorem State.refusePort_bidx (s : State) : (s.refusePort).bidx = s.bidx := rfl
@[simp] theorem State.refusePort_bufs (s : State) : (s.refusePort).bufs = s.bufs := rfl
@[simp] theorem State.refusePort_st (s : State) : (s.refusePort).st = s.st := rfl
@[simp] theorem State.refusePort_ksv (s : State) : (s.refusePort).ksv = s.ksv := rfl
@[simp] theorem State.refusePort_rk (s : State) : (s.refusePort).rk = s.rk := rfl
@[simp] theorem State.refusePort_schedule (s : State) : (s.refusePort).schedule = s.schedule := rfl
@[simp] theorem State.refusePort_rdata (s : State) : (s.refusePort).rdata = s.rdata := rfl
@[simp] theorem State.refusePort_draws (s : State) : (s.refusePort).draws = s.draws := rfl
@[simp] theorem State.refusePort_buf (s : State) (x : BufNum) : (s.refusePort).buf x = s.buf x := rfl
@[simp] theorem State.refusePort_slot (s : State) (x : BufNum) (i : Nat) : (s.refusePort).slot x i = s.slot x i := rfl

/-! ### `State.resetBlock` -/

@[simp] theorem State.resetBlock_ie (s : State) : s.resetBlock.ie = State.reset.ie := rfl
@[simp] theorem State.resetBlock_busy (s : State) : s.resetBlock.busy = State.reset.busy := rfl
@[simp] theorem State.resetBlock_done (s : State) : s.resetBlock.done = State.reset.done := rfl
@[simp] theorem State.resetBlock_ovr (s : State) : s.resetBlock.ovr = State.reset.ovr := rfl
@[simp] theorem State.resetBlock_perr (s : State) : s.resetBlock.perr = State.reset.perr := rfl
@[simp] theorem State.resetBlock_errcode (s : State) : s.resetBlock.errcode = State.reset.errcode := rfl
@[simp] theorem State.resetBlock_cmd (s : State) : s.resetBlock.cmd = State.reset.cmd := rfl
@[simp] theorem State.resetBlock_arg0 (s : State) : s.resetBlock.arg0 = State.reset.arg0 := rfl
@[simp] theorem State.resetBlock_arg1 (s : State) : s.resetBlock.arg1 = State.reset.arg1 := rfl
@[simp] theorem State.resetBlock_result (s : State) : s.resetBlock.result = State.reset.result := rfl
@[simp] theorem State.resetBlock_bsel (s : State) : s.resetBlock.bsel = State.reset.bsel := rfl
@[simp] theorem State.resetBlock_bidx (s : State) : s.resetBlock.bidx = State.reset.bidx := rfl
@[simp] theorem State.resetBlock_bufs (s : State) : s.resetBlock.bufs = State.reset.bufs := rfl
@[simp] theorem State.resetBlock_st (s : State) : s.resetBlock.st = State.reset.st := rfl
@[simp] theorem State.resetBlock_ksv (s : State) : s.resetBlock.ksv = State.reset.ksv := rfl
@[simp] theorem State.resetBlock_rk (s : State) : s.resetBlock.rk = State.reset.rk := rfl
@[simp] theorem State.resetBlock_schedule (s : State) : s.resetBlock.schedule = s.schedule := rfl
@[simp] theorem State.resetBlock_rdata (s : State) : s.resetBlock.rdata = s.rdata := rfl
@[simp] theorem State.resetBlock_draws (s : State) : s.resetBlock.draws = s.draws := rfl

/-! ### Buffers -/

/-- Reading a buffer after one was replaced. -/
theorem State.buf_setBuf (s : State) (b c : BufNum) (x : Buffer) :
    (s.setBuf b x).buf c = if c = b then x else s.buf c := by
  by_cases h : c = b
  · subst h; simp [State.buf, State.setBuf, Vector.get_eq_getElem]
  · have h' : b.val ≠ c.val := fun e => h (Fin.ext e.symm)
    simp [State.buf, State.setBuf, Vector.get_eq_getElem, h, h']

@[simp] theorem State.buf_setBuf_same (s : State) (b : BufNum) (x : Buffer) : (s.setBuf b x).buf b = x := by
  simp [State.buf_setBuf]

@[simp] theorem State.buf_setBuf_other (s : State) (b c : BufNum) (x : Buffer) (h : c ≠ b) :
    (s.setBuf b x).buf c = s.buf c := by
  simp [State.buf_setBuf, h]

@[simp] theorem State.buf_bufWrite_same (s : State) (b : BufNum) (e : Enc) (q : List Byte) :
    (s.bufWrite b e q).buf b = { enc := e, len := q.length, sym := (s.buf b).sym.writeSeq 0 q } := by
  simp [State.bufWrite]

@[simp] theorem State.buf_bufWrite_other (s : State) (b c : BufNum) (e : Enc) (q : List Byte) (h : c ≠ b) :
    (s.bufWrite b e q).buf c = s.buf c := by
  simp [State.bufWrite, h]

/-- Two states that agree on every field but the buffers, and on every buffer, are equal. -/
theorem State.bufs_ext (s t : State) (h : ∀ b, s.buf b = t.buf b) : s.bufs = t.bufs := by
  apply Vector.ext
  intro i hi
  simpa [State.buf, Vector.get_eq_getElem] using h ⟨i, hi⟩

@[simp] theorem State.reset_buf (b : BufNum) : State.reset.buf b = Buffer.empty := by
  simp [State.buf, State.reset, Vector.get_eq_getElem]

@[simp] theorem State.resetBlock_buf (s : State) (b : BufNum) : s.resetBlock.buf b = Buffer.empty :=
  State.reset_buf b

/-! ### Outcomes of a command -/

@[simp] theorem raise_eq (c : Code) (s : State) : raise c s = .next (s.complete c) := rfl

@[simp] theorem succeed_eq (s : State) : succeed s = .next (s.complete .none) := rfl

end Sys2Proof.Machine
end

