-- ==== Sys2Proof/Laws/Commands.lean ====
section
/-! SUPPORT. What the shared operations of the commands can do, said once each: `BufWrite` (R8), the round-key operand
(R130, R135), and the sequence a buffer written whole gives back. -/

namespace Sys2Proof.Machine

/-- `BufWrite` (R8): the new symbols below len(q), the old contents above, and no other buffer. -/
theorem State.slot_bufWrite (s : State) (b c : BufNum) (e : Enc) (q : List Byte) (i : Nat) :
    (s.bufWrite b e q).slot c i = if c = b ∧ i < q.length then q[i]? else s.slot c i := by
  by_cases h : c = b
  · subst h
    simp [State.slot, Memory.read_writeSeq]
  · simp [State.slot, h]

/-- What a command that goes on with a round key has checked and got (R130, R135, R181). -/
theorem withRoundKey_cases (s : State) (k : Block → Result) :
    (s.ksv = false ∧ withRoundKey s k = raise .noKeySchedule s) ∨
      (s.ksv = true ∧ 11 ≤ s.arg0Nat ∧ withRoundKey s k = raise .indexOutOfRange s) ∨
      ∃ h : s.arg0Nat < 11, s.ksv = true ∧ withRoundKey s k = k (s.rk.get ⟨s.arg0Nat, h⟩) := by
  unfold withRoundKey
  cases hk : s.ksv with
  | false => exact .inl ⟨rfl, rfl⟩
  | true =>
    by_cases h : s.arg0Nat < 11
    · exact .inr (.inr ⟨h, rfl, by simp [h]⟩)
    · exact .inr (.inl ⟨rfl, by omega, by simp [h]⟩)

/-- A buffer that `BufWrite` has just written reads back the symbols written and draws nothing. -/
theorem syms_bufWrite (s : State) (b : BufNum) (e : Enc) (q : List Byte) (d : Nat) :
    ((s.bufWrite b e q).buf b).syms d = .ok (q, d) := by
  rw [State.buf_bufWrite_same]
  refine readSeq_defined d fun k hk => ?_
  simp [Memory.read_writeSeq, hk]

/-- Reading an operand leaves everything but the number of draws. -/
theorem withSyms_cases (mn : String) (b : BufNum) (s : State) (k : List Byte → State → Result) :
    (∃ i, (s.buf b).syms s.draws = .error i ∧ withSyms mn b s k = .fault (.undefinedOperand mn b i)) ∨
      ∃ q d, (s.buf b).syms s.draws = .ok (q, d) ∧ withSyms mn b s k = k q (s.withDraws d) := by
  cases h : (s.buf b).syms s.draws with
  | error i => exact .inl ⟨i, rfl, by simp [withSyms, h]⟩
  | ok r => exact .inr ⟨r.1, r.2, rfl, withSyms_ok h⟩

end Sys2Proof.Machine
end

