-- ==== Sys2Proof/Laws/Config.lean ====
section
/-! SUPPORT. What is known of CAP: its range (R5), and nothing else. -/

namespace Sys2Proof.Config

/-- CAP is at least 256 (R5). -/
theorem cap_ge : 256 ≤ cap := Nat.le_add_left _ _

/-- CAP is at most 2^24 (R5). -/
theorem cap_le : cap ≤ 2 ^ 24 := by
  have := Nat.mod_lt capExcess (show 0 < 2 ^ 24 - 256 + 1 by decide)
  unfold cap
  omega

/-- UNDEF_READ has two values (R57). -/
theorem undefRead_cases : undefRead = .draw ∨ undefRead = .fault := by
  cases undefRead with
  | fault => exact .inr rfl
  | draw => exact .inl rfl

end Sys2Proof.Config
end

