-- ==== Sys2Proof/Laws/Observation.lean ====
section
/-! SUPPORT. The fields of the observation (R169), and what the end of a run can be. -/

namespace Sys2Proof.Machine

@[simp] theorem State.observe_st (s : State) : s.observe.st = s.st := rfl
@[simp] theorem State.observe_ksv (s : State) : s.observe.ksv = s.ksv := rfl
@[simp] theorem State.observe_rk (s : State) : s.observe.rk = if s.ksv then some s.rk else none := rfl
@[simp] theorem State.observe_result (s : State) : s.observe.result = s.result := rfl
@[simp] theorem State.observe_cmd (s : State) : s.observe.cmd = s.cmd := rfl
@[simp] theorem State.observe_status (s : State) : s.observe.status = s.statusWord := rfl

@[simp] theorem State.observe_buffers (s : State) (b : BufNum) : s.observe.buffers.get b = (s.buf b).value := by
  simp [State.observe, State.buf, Vector.get_eq_getElem]

/-- A run that ends within `k` steps ends after some number of them, in a state whose run is over. -/
theorem endOfRun_eq_some {k : Nat} {s : State} {o : Observation} (h : endOfRun k s = some o) :
    ∃ n t, n ≤ k ∧ Host.Core.run Sys2Proof.core n s = .next t ∧ t.runOver = true ∧ o = t.observe := by
  induction k generalizing s with
  | zero =>
    simp only [endOfRun, Option.ite_none_right_eq_some, Option.some.injEq] at h
    exact ⟨0, s, Nat.le_refl _, rfl, h.1, h.2.symm⟩
  | succ k ih =>
    unfold endOfRun at h
    split at h
    · rename_i ho
      exact ⟨0, s, Nat.zero_le _, rfl, ho, (Option.some.inj h).symm⟩
    · split at h
      · rename_i t ht
        obtain ⟨n, u, hn, hr, hu⟩ := ih h
        refine ⟨n + 1, u, Nat.succ_le_succ hn, ?_, hu⟩
        have hs : Sys2Proof.core.step s = .next t := ht
        simp only [Host.Core.run, hs]
        exact hr
      · exact absurd h (by simp)
      · exact absurd h (by simp)

end Sys2Proof.Machine
end

