-- ==== Sys2Proof/Laws/PerInstr.lean ====
section
/-! SUPPORT. The per-instruction family `EncodedFields`: the opcode and the reserved bits of every command's word
(R80, R84). -/

namespace Sys2Proof

/-- The opcode field of an assembled word (R84). -/
theorem fieldOp_assemble (op : BitVec 8) (d a b : BitVec 3) (e : BitVec 2) : fieldOp (assemble op d a b e) = op := by
  ext i hi
  simp [fieldOp, assemble, BitVec.getElem_extractLsb',
    show i < 17 by omega, show i < 14 by omega, show i < 11 by omega, hi, show i < 32 by omega]

/-- The reserved bits of an assembled word are zero (R84). -/
theorem fieldReserved_assemble (op : BitVec 8) (d a b : BitVec 3) (e : BitVec 2) :
    fieldReserved (assemble op d a b e) = 0 := by
  ext i hi
  have h1 : e.getLsbD (19 + i - 17) = false := BitVec.getLsbD_of_ge _ _ (by omega)
  have h2 : b.getLsbD (19 + i - 14) = false := BitVec.getLsbD_of_ge _ _ (by omega)
  have h3 : a.getLsbD (19 + i - 11) = false := BitVec.getLsbD_of_ge _ _ (by omega)
  have h4 : d.getLsbD (19 + i - 8) = false := BitVec.getLsbD_of_ge _ _ (by omega)
  have h5 : op.getLsbD (19 + i) = false := BitVec.getLsbD_of_ge _ _ (by omega)
  simp [fieldReserved, assemble, BitVec.getElem_extractLsb', BitVec.getLsbD_or, BitVec.getLsbD_shiftLeft, h1, h2, h3,
    h4, h5]

end Sys2Proof

namespace Sys2Proof.Laws.EncodedFields

/-- The word of a command carries its opcode of R83 in bits 7:0 and zeros in bits 31:19. -/
def Statement (i : Instr) : Prop := fieldOp (encode i) = opcode i ∧ fieldReserved (encode i) = 0

theorem nop : Statement .nop := ⟨fieldOp_assemble _ _ _ _ _, fieldReserved_assemble _ _ _ _ _⟩
theorem parse (d a : BufNum) (e : Enc) : Statement (.parse d a e) := ⟨fieldOp_assemble _ _ _ _ _, fieldReserved_assemble _ _ _ _ _⟩
theorem render (d a : BufNum) : Statement (.render d a) := ⟨fieldOp_assemble _ _ _ _ _, fieldReserved_assemble _ _ _ _ _⟩
theorem convert (d a : BufNum) (e : Enc) : Statement (.convert d a e) := ⟨fieldOp_assemble _ _ _ _ _, fieldReserved_assemble _ _ _ _ _⟩
theorem slice (d a : BufNum) : Statement (.slice d a) := ⟨fieldOp_assemble _ _ _ _ _, fieldReserved_assemble _ _ _ _ _⟩
theorem xor (d a b : BufNum) : Statement (.xor d a b) := ⟨fieldOp_assemble _ _ _ _ _, fieldReserved_assemble _ _ _ _ _⟩
theorem hamm (a b : BufNum) : Statement (.hamm a b) := ⟨fieldOp_assemble _ _ _ _ _, fieldReserved_assemble _ _ _ _ _⟩
theorem keyexp (a : BufNum) : Statement (.keyexp a) := ⟨fieldOp_assemble _ _ _ _ _, fieldReserved_assemble _ _ _ _ _⟩
theorem dececb (d a b : BufNum) : Statement (.dececb d a b) := ⟨fieldOp_assemble _ _ _ _ _, fieldReserved_assemble _ _ _ _ _⟩
theorem stld (a : BufNum) : Statement (.stld a) := ⟨fieldOp_assemble _ _ _ _ _, fieldReserved_assemble _ _ _ _ _⟩
theorem stst (d : BufNum) : Statement (.stst d) := ⟨fieldOp_assemble _ _ _ _ _, fieldReserved_assemble _ _ _ _ _⟩
theorem ark : Statement .ark := ⟨fieldOp_assemble _ _ _ _ _, fieldReserved_assemble _ _ _ _ _⟩
theorem isr : Statement .isr := ⟨fieldOp_assemble _ _ _ _ _, fieldReserved_assemble _ _ _ _ _⟩
theorem isb : Statement .isb := ⟨fieldOp_assemble _ _ _ _ _, fieldReserved_assemble _ _ _ _ _⟩
theorem imc : Statement .imc := ⟨fieldOp_assemble _ _ _ _ _, fieldReserved_assemble _ _ _ _ _⟩
theorem decblk : Statement .decblk := ⟨fieldOp_assemble _ _ _ _ _, fieldReserved_assemble _ _ _ _ _⟩
theorem rkrd (d : BufNum) : Statement (.rkrd d) := ⟨fieldOp_assemble _ _ _ _ _, fieldReserved_assemble _ _ _ _ _⟩
theorem tblrd : Statement .tblrd := ⟨fieldOp_assemble _ _ _ _ _, fieldReserved_assemble _ _ _ _ _⟩

end Sys2Proof.Laws.EncodedFields
end

