-- ==== Sys2Proof/Tests/Slice0.lean ====
section
/-! SUPPORT. The model's own tests. An expected value is the spec's: 95_test_vectors.md, by the row each test names. The
second half shows for every statement with hypotheses a state and operands that meet them. -/

namespace Sys2Proof.Tests

open Sys2Proof Sys2Proof.Machine

/-! ## Well-formedness (R81, R85 item 4) -/

theorem test_parse_to_text_ill_formed : (Instr.parse 1 0 .text).wellFormed = false := by decide
theorem test_convert_to_text_ill_formed : (Instr.convert 1 0 .text).wellFormed = false := by decide
theorem test_nameable_encodings_well_formed :
    ∀ e, (Instr.parse 7 7 e).wellFormed = true ↔ e = .hex ∨ e = .b64 ∨ e = .raw := by
  intro e; cases e <;> decide

/-! ## Decoding of words written in the spec (95_test_vectors.md section 2.0, R83) -/

theorem test_decode_nop : decode 0x00000000 = .ok (.nop) ∧ encode (.nop) = 0x00000000 := ⟨rfl, rfl⟩
theorem test_decode_parse : decode 0x00020101 = .ok (.parse 1 0 .b64) ∧ encode (.parse 1 0 .b64) = 0x00020101 := ⟨rfl, rfl⟩
theorem test_decode_render : decode 0x00001302 = .ok (.render 3 2) ∧ encode (.render 3 2) = 0x00001302 := ⟨rfl, rfl⟩
theorem test_decode_convert : decode 0x00020A03 = .ok (.convert 2 1 .b64) ∧ encode (.convert 2 1 .b64) = 0x00020A03 := ⟨rfl, rfl⟩
theorem test_decode_slice : decode 0x00000104 = .ok (.slice 1 0) ∧ encode (.slice 1 0) = 0x00000104 := ⟨rfl, rfl⟩
theorem test_decode_xor : decode 0x00004205 = .ok (.xor 2 0 1) ∧ encode (.xor 2 0 1) = 0x00004205 := ⟨rfl, rfl⟩
theorem test_decode_hamm : decode 0x00004006 = .ok (.hamm 0 1) ∧ encode (.hamm 0 1) = 0x00004006 := ⟨rfl, rfl⟩
theorem test_decode_keyexp : decode 0x00000807 = .ok (.keyexp 1) ∧ encode (.keyexp 1) = 0x00000807 := ⟨rfl, rfl⟩
theorem test_decode_dececb : decode 0x00004208 = .ok (.dececb 2 0 1) ∧ encode (.dececb 2 0 1) = 0x00004208 := ⟨rfl, rfl⟩
theorem test_decode_stld : decode 0x00000009 = .ok (.stld 0) ∧ encode (.stld 0) = 0x00000009 := ⟨rfl, rfl⟩
theorem test_decode_stst : decode 0x0000050A = .ok (.stst 5) ∧ encode (.stst 5) = 0x0000050A := ⟨rfl, rfl⟩
theorem test_decode_ark : decode 0x0000000B = .ok (.ark) ∧ encode (.ark) = 0x0000000B := ⟨rfl, rfl⟩
theorem test_decode_isr : decode 0x0000000C = .ok (.isr) ∧ encode (.isr) = 0x0000000C := ⟨rfl, rfl⟩
theorem test_decode_isb : decode 0x0000000D = .ok (.isb) ∧ encode (.isb) = 0x0000000D := ⟨rfl, rfl⟩
theorem test_decode_imc : decode 0x0000000E = .ok (.imc) ∧ encode (.imc) = 0x0000000E := ⟨rfl, rfl⟩
theorem test_decode_decblk : decode 0x0000000F = .ok (.decblk) ∧ encode (.decblk) = 0x0000000F := ⟨rfl, rfl⟩
theorem test_decode_rkrd : decode 0x00000410 = .ok (.rkrd 4) ∧ encode (.rkrd 4) = 0x00000410 := ⟨rfl, rfl⟩
theorem test_decode_tblrd : decode 0x00000011 = .ok (.tblrd) ∧ encode (.tblrd) = 0x00000011 := ⟨rfl, rfl⟩

/-- XOR s7, s7, s7 (all fields 7) and CONVERT s0, s0, raw. -/
theorem test_decode_full_fields :
    decode 0x0001FF05 = .ok (.xor 7 7 7) ∧ decode 0x00040003 = .ok (.convert 0 0 .raw) := ⟨rfl, rfl⟩

/-- The ten illegal words of 95_test_vectors.md section 2.0. -/
theorem test_decode_illegal_words :
    decode 0x00000012 = .error .reservedOpcode ∧ decode 0x000000FF = .error .reservedOpcode
      ∧ decode 0x00080000 = .error .reservedBits ∧ decode 0x80000005 = .error .reservedBits
      ∧ decode 0x00000100 = .error .unusedD ∧ decode 0x00060001 = .error .illegalEncoding
      ∧ decode 0x00004001 = .error .unusedB ∧ decode 0x00020005 = .error .unusedE
      ∧ decode 0x00000106 = .error .unusedD ∧ decode 0x0000080B = .error .unusedA :=
  ⟨rfl, rfl, rfl, rfl, rfl, rfl, rfl, rfl, rfl, rfl⟩

/-- The opcode table numbers the bits of one word; `decodeTableWord` reads them. -/
theorem test_decodeTableWord :
    decodeTableWord 32 0x00001302 = some (.render 3 2) ∧ decodeTableWord 32 0x00080000 = none := ⟨rfl, rfl⟩

/-! ## Small states -/

/-- The reset state with one buffer S0. -/
def one (e : Enc) (q : List Byte) : State := State.reset.bufWrite 0 e q

/-- The reset state with two buffers S0 and S1. -/
def two (e : Enc) (q : List Byte) (e' : Enc) (q' : List Byte) : State := (one e q).bufWrite 1 e' q'

/-- The answer's ERRCODE, and the tag, length and array of buffer `b`. -/
def bufferAfter (b : BufNum) (r : Result) : Option (BitVec 8 × Buffer) :=
  match r with
  | .next t => some (t.errcode, t.buf b)
  | .fault _ => none
  | .refused _ => none

/-- The answer's ERRCODE and RESULT. -/
def resultAfter (r : Result) : Option (BitVec 8 × Word) :=
  match r with
  | .next t => some (t.errcode, t.result)
  | .fault _ => none
  | .refused _ => none

/-- The answer's ERRCODE and ST. -/
def stAfter (r : Result) : Option (BitVec 8 × List Byte) :=
  match r with
  | .next t => some (t.errcode, t.st.toList)
  | .fault _ => none
  | .refused _ => none

/-- A completed command that wrote tag `e` and symbols `q` into an empty buffer. -/
def wrote (e : Enc) (q : List Byte) : Option (BitVec 8 × Buffer) :=
  some (0, { enc := e, len := q.length, sym := Memory.writeSeq [] 0 q })

/-- A command that failed with `code` and left the buffer empty. -/
def failedWith (code : BitVec 8) : Option (BitVec 8 × Buffer) := some (code, Buffer.empty)

/-- Sixteen bytes as a block. -/
def block (q : List Byte) : Block := blockAt q 0

/-- A state whose ST is `q` and whose keys are the schedule of `k`. -/
def keyed (k q : List Byte) : State :=
  { State.reset with
    st := block q
    rk := keyExpansion (block k)
    ksv := true }

/-- The key 000102...0f of 95_test_vectors.md section 2.3. -/
def key1 : List Byte := [0x00, 0x01, 0x02, 0x03, 0x04, 0x05, 0x06, 0x07, 0x08, 0x09, 0x0a, 0x0b, 0x0c, 0x0d, 0x0e, 0x0f]

/-! ## One step of each command -/

/-- V-Y16: NOP clears an earlier code. -/
theorem test_nop :
    bufferAfter 0 (exec .nop { State.reset with errcode := 3 }) = some (0, Buffer.empty) := by decide
/-- V-S6. -/
theorem test_parse_b64 :
    bufferAfter 1 (exec (.parse 1 0 .b64) (one .text [0x5a, 0x7a, 0x30, 0x39, 0x2b, 0x2f, 0x3d])) = wrote .b64 [25, 51, 52, 61, 62, 63, 255] := by decide
/-- V-S4. -/
theorem test_parse_invalid_symbol :
    bufferAfter 1 (exec (.parse 1 0 .hex) (one .text [0x34, 0x67])) = failedWith 1 := by decide
/-- V-S43. -/
theorem test_render_b64 :
    bufferAfter 1 (exec (.render 1 0) (one .b64 [16, 20, 8, 255])) = wrote .text [0x51, 0x55, 0x49, 0x3d] := by decide
/-- V-S42: lower case. -/
theorem test_render_hex :
    bufferAfter 1 (exec (.render 1 0) (one .hex [10, 11, 12])) = wrote .text [0x61, 0x62, 0x63] := by decide
/-- V-S32: padding. -/
theorem test_convert_raw_b64 :
    bufferAfter 1 (exec (.convert 1 0 .b64) (one .raw [0x41, 0x42])) = wrote .b64 [16, 20, 8, 255] := by decide +kernel
/-- V-S25: non-zero pad bits. -/
theorem test_convert_pad_bits :
    bufferAfter 1 (exec (.convert 1 0 .raw) (one .b64 [16, 17, 255, 255])) = failedWith 12 := by decide
/-- V-S49, on the first eight bytes of its operand. -/
theorem test_slice :
    bufferAfter 1 (exec (.slice 1 0) { one .raw [0x74, 0x68, 0x69, 0x73, 0x20, 0x69, 0x73, 0x20] with arg0 := 5, arg1 := 7 }) = wrote .raw [0x69, 0x73] := by decide
/-- V-S55. -/
theorem test_slice_past_end :
    bufferAfter 1 (exec (.slice 1 0) { one .raw [0x74, 0x68, 0x69, 0x73, 0x20, 0x69, 0x73, 0x20, 0x61, 0x20, 0x74, 0x65, 0x73, 0x74] with arg0 := 15, arg1 := 15 }) = failedWith 6 := by decide
/-- V-X2. -/
theorem test_xor_repeats_key :
    bufferAfter 2 (exec (.xor 2 0 1) (two .raw [0x61, 0x62, 0x63, 0x64, 0x65, 0x66] .raw [1, 2]))
      = wrote .raw [0x60, 0x60, 0x62, 0x66, 0x64, 0x64] := by decide
/-- V-X12. -/
theorem test_xor_sentinel :
    bufferAfter 2 (exec (.xor 2 0 1) (two .b64 [255] .b64 [5])) = failedWith 12 := by decide
/-- V-X17 (W1). -/
theorem test_hamm :
    resultAfter (exec (.hamm 0 1) (two .raw [0x74, 0x68, 0x69, 0x73, 0x20, 0x69, 0x73, 0x20, 0x61, 0x20, 0x74, 0x65, 0x73, 0x74]
      .raw [0x77, 0x6f, 0x6b, 0x6b, 0x61, 0x20, 0x77, 0x6f, 0x6b, 0x6b, 0x61, 0x21, 0x21, 0x21])) = some (0, 37) := by decide
/-- V-X20. -/
theorem test_hamm_masks_sentinel :
    resultAfter (exec (.hamm 0 1) (two .b64 [255] .b64 [0])) = some (0, 6) := by decide
/-- The last round key of the key 000102...0f (95_test_vectors.md section 2.3), which KEYEXP puts into RK[10]. -/
theorem test_keyexp :
    (match exec (.keyexp 0) (one .raw key1) with
      | .next t => some (t.ksv, (t.rk.get 10).toList)
      | .fault _ => none
      | .refused _ => none)
      = some (true, [0x13, 0x11, 0x1d, 0x7f, 0xe3, 0x94, 0x4a, 0x17, 0xf3, 0x07, 0xa7, 0x8b, 0x4d, 0x2b, 0x30, 0xc5]) := by decide +kernel
/-- V-A1. -/
theorem test_keyexp_length :
    bufferAfter 0 (exec (.keyexp 1) (two .raw [] .raw (key1.take 15))) = failedWith 8 := by decide
/-- V-A14. -/
theorem test_dececb :
    bufferAfter 2 (exec (.dececb 2 0 1) (two .raw [0x69, 0xc4, 0xe0, 0xd8, 0x6a, 0x7b, 0x04, 0x30, 0xd8, 0xcd, 0xb7, 0x80, 0x70, 0xb4, 0xc5, 0x5a] .raw key1))
      = wrote .raw [0x00, 0x11, 0x22, 0x33, 0x44, 0x55, 0x66, 0x77, 0x88, 0x99, 0xaa, 0xbb, 0xcc, 0xdd, 0xee, 0xff] := by decide +kernel
/-- V-A7. -/
theorem test_dececb_checks_block_first :
    bufferAfter 2 (exec (.dececb 2 0 1) (two .raw (zeros 17) .raw (zeros 15))) = failedWith 7 := by decide
/-- R128: ST[i] is symbol i. -/
theorem test_stld :
    stAfter (exec (.stld 0) (one .raw key1)) = some (0, key1) := by decide
/-- V-A11. -/
theorem test_stld_length :
    stAfter (exec (.stld 0) (one .raw (zeros 32))) = some (7, zeros 16) := by decide
/-- V-A12. -/
theorem test_stst :
    bufferAfter 5 (exec (.stst 5) State.reset) = wrote .raw (zeros 16) := by decide
/-- Section 2.3: AddRoundKey with W[0] of the key 000102...0f. -/
theorem test_ark :
    stAfter (exec .ark (keyed key1 key1)) = some (0, zeros 16) := by decide +kernel
/-- V-A3. -/
theorem test_ark_needs_keys :
    stAfter (exec .ark State.reset) = some (11, zeros 16) := by decide
/-- Section 2.3. -/
theorem test_isr :
    stAfter (exec .isr { State.reset with st := block key1 }) = some (0, [0x00, 0x0d, 0x0a, 0x07, 0x04, 0x01, 0x0e, 0x0b, 0x08, 0x05, 0x02, 0x0f, 0x0c, 0x09, 0x06, 0x03]) := by decide
/-- Section 2.3. -/
theorem test_isb :
    stAfter (exec .isb { State.reset with st := block key1 }) = some (0, [0x52, 0x09, 0x6a, 0xd5, 0x30, 0x36, 0xa5, 0x38, 0xbf, 0x40, 0xa3, 0x9e, 0x81, 0xf3, 0xd7, 0xfb]) := by decide
/-- Section 2.3. -/
theorem test_imc :
    stAfter (exec .imc { State.reset with st := block [0x8e, 0x4d, 0xa1, 0xbc, 0x8e, 0x4d, 0xa1, 0xbc, 0x8e, 0x4d, 0xa1, 0xbc, 0x8e, 0x4d, 0xa1, 0xbc] })
      = some (0, [0xdb, 0x13, 0x53, 0x45, 0xdb, 0x13, 0x53, 0x45, 0xdb, 0x13, 0x53, 0x45, 0xdb, 0x13, 0x53, 0x45]) := by decide
/-- Section 2.3. -/
theorem test_imc_ramp :
    stAfter (exec .imc { State.reset with st := block key1 }) = some (0, [0x0a, 0x0f, 0x08, 0x0d, 0x0e, 0x0b, 0x0c, 0x09, 0x02, 0x07, 0x00, 0x05, 0x06, 0x03, 0x04, 0x01]) := by decide
/-- V-A13. -/
theorem test_decblk :
    stAfter (exec .decblk (keyed key1 [0x69, 0xc4, 0xe0, 0xd8, 0x6a, 0x7b, 0x04, 0x30, 0xd8, 0xcd, 0xb7, 0x80, 0x70, 0xb4, 0xc5, 0x5a]))
      = some (0, [0x00, 0x11, 0x22, 0x33, 0x44, 0x55, 0x66, 0x77, 0x88, 0x99, 0xaa, 0xbb, 0xcc, 0xdd, 0xee, 0xff]) := by decide +kernel
/-- V-A5. -/
theorem test_decblk_needs_keys :
    stAfter (exec .decblk State.reset) = some (11, zeros 16) := by decide
/-- Section 2.3: RK[1] of the zero key. -/
theorem test_rkrd :
    bufferAfter 4 (exec (.rkrd 4) { keyed (zeros 16) [] with arg0 := 1 })
      = wrote .raw [0x62, 0x63, 0x63, 0x63, 0x62, 0x63, 0x63, 0x63, 0x62, 0x63, 0x63, 0x63, 0x62, 0x63, 0x63, 0x63] := by decide +kernel
/-- V-A6. -/
theorem test_rkrd_checks_keys_first :
    bufferAfter 4 (exec (.rkrd 4) { State.reset with arg0 := 11 }) = failedWith 11 := by decide
/-- Section 2.4: MUL11[255]. -/
theorem test_tblrd :
    resultAfter (exec .tblrd { State.reset with arg0 := 255, arg1 := 4 }) = some (0, 0xA3) := by decide
/-- Section 2.4: RCON has no entry 0. -/
theorem test_tblrd_rcon :
    resultAfter (exec .tblrd { State.reset with arg0 := 0, arg1 := 2 }) = some (6, 0) := by decide

/-! ## The bus and the run -/

/-- The answer's STATUS word. -/
def statusAfter (r : Result) : Option Word :=
  match r with
  | .next t => some t.statusWord
  | .fault _ => none
  | .refused _ => none

/-- The steps of a run from `s` (R158). -/
def runFrom (k : Nat) (s : State) (es : List Event) : Result := Host.Core.run Sys2Proof.core k { s with schedule := es }

/-- V-Y2: RUN NOP from reset. -/
theorem test_run_nop : statusAfter (runFrom 2 State.reset (scriptCmd .nop ++ [.engine])) = some 0x00000002 := by decide
/-- Section 2.0: an illegal word gives STATUS 0x00000906. -/
theorem test_illegal_status : statusAfter (runFrom 2 State.reset [wr .cmd 0x00000012, .engine]) = some 0x00000906 := by
  decide
/-- V-Y5: while BUSY = 1, WR ARG0 and RD RESULT set OVR. -/
theorem test_overrun : statusAfter (runFrom 3 State.reset [wr .cmd 0, wr .arg0 5, rd .result]) = some 0x00000009 := by
  decide
/-- V-Y7: a soft reset discards the command in progress. -/
theorem test_soft_reset : statusAfter (runFrom 2 State.reset [wr .cmd 0, wr .ctrl 2]) = some 0x00000000 := by decide
/-- V-Y8: the HOST cannot give a buffer the tag HEX. -/
theorem test_benc_refused : statusAfter (runFrom 2 State.reset [wr .bsel 3, wr .benc 0]) = some 0x00000010 := by decide
/-- `withFetchWord` places a command that the next step runs: V-A12. -/
theorem test_withFetchWord : bufferAfter 5 (step (State.reset.withFetchWord 32 0x0000050A)) = wrote .raw (zeros 16) := by
  decide
/-- V-Y16 and R169: the run of RUN NOP after a failed command ends with STATUS 0x00000002 and CMD = 0. -/
theorem test_end_of_run :
    (endOfRun 3 { State.reset with errcode := 3, schedule := scriptRun .nop 0 }).map (fun o => (o.status, o.cmd))
      = some (0x00000002, 0x00000000) := by decide
/-- R169: a run with BUSY = 1 is not over. -/
theorem test_busy_run_not_over : (State.reset.accept 0).runOver = false ∧ State.reset.runOver = true := by decide
/-- The reset state's arrays are in canonical form. -/
theorem test_reset_memory_wf : ∀ b, (State.reset.buf b).sym.wf := by simp [Buffer.empty]


/-! ## Witnesses: states and operands that meet the hypotheses of the statements, clause by clause -/

/-- `s` with one event to come. -/
def upNext (e : Event) (s : State) : State := { s with schedule := [e] }

/-- A reset state whose command in progress is the word `w`. -/
def running (w : Word) : State := State.reset.accept w

/-- A host word that holds CAP. -/
def capWord : Word := BitVec.ofNat 32 Config.cap

theorem capWord_toNat : capWord.toNat = Config.cap := by
  have := Config.cap_le
  simp only [capWord, BitVec.toNat_ofNat]
  omega

theorem capWord_add_toNat : (capWord + 1).toNat = Config.cap + 1 := by
  have := Config.cap_le
  rw [BitVec.toNat_add, capWord_toNat]
  simp
  omega

theorem capWord_sub_toNat : (capWord - 1).toNat = Config.cap - 1 := by
  have h := Config.cap_le
  have h' := Config.cap_ge
  rw [BitVec.toNat_sub, capWord_toNat]
  simp
  omega

/-- The one-buffer state's operand reads as written. -/
theorem reads_one (e : Enc) (q : List Byte) (d : Nat) : (one e q).Reads 0 d q d := syms_bufWrite State.reset 0 e q d

/-- The first operand of the two-buffer state reads as written. -/
theorem reads_two_fst (e : Enc) (q : List Byte) (e' : Enc) (q' : List Byte) (d : Nat) :
    (two e q e' q').Reads 0 d q d := by
  have h : (two e q e' q').buf 0 = (one e q).buf 0 := State.buf_bufWrite_other _ _ _ _ _ (by decide)
  unfold State.Reads
  rw [h]
  exact reads_one e q d

/-- The second operand of the two-buffer state reads as written. -/
theorem reads_two_snd (e : Enc) (q : List Byte) (e' : Enc) (q' : List Byte) (d : Nat) :
    (two e q e' q').Reads 1 d q' d := syms_bufWrite (one e q) 1 e' q' d

/-- Every slot below a length is defined. -/
theorem one_allDefined (e : Enc) (q : List Byte) : (one e q).allDefined 0 := by
  intro i hi
  have hi' : i < q.length := by simpa [one] using hi
  simp [one, State.slot_bufWrite, hi']

theorem test_witness_DecodeEncodeWellFormed :
    (Instr.parse 0 7 .hex).wellFormed = true ∧ (Instr.convert 7 0 .raw).wellFormed = true := by decide

theorem test_witness_LegalWordsHaveOneCommand : decode 0x0001FF05 = .ok (.xor 7 7 7) ∧ decode 0 = .ok .nop := ⟨rfl, rfl⟩

theorem test_witness_IllegalWordsCompleteWithCode9 :
    (running 0x00000012).busy = true ∧ (running 0x00000012).engineNext ∧ illegalWord (running 0x00000012).cmd
      ∧ illegalWord 0x00080000 ∧ illegalWord 0x00000100 ∧ illegalWord 0x0000080B ∧ illegalWord 0x00004001
      ∧ illegalWord 0x00020005 ∧ illegalWord 0x00060001 ∧ ¬illegalWord 0x0001FF05 := by
  refine ⟨rfl, .inl rfl, ?_, ?_, ?_, ?_, ?_, ?_, ?_, ?_⟩ <;> unfold illegalWord usesD usesA usesB usesE <;> decide

/-- The letter case of R88's example mnemonics and names does not count. -/
theorem test_witness_AssemblerReadsWhatItWrites :
    (Instr.parse 7 0 .b64).wellFormed = true
      ∧ ["Parse", "S7", "s0", "B64"].map lower = (asmTokens (.parse 7 0 .b64)).map lower := by decide

theorem test_witness_StepRunsDecodedCommand :
    ((running 0x0000050A).busy = true ∧ (running 0x0000050A).engineNext
        ∧ decode (running 0x0000050A).cmd = .ok (.stst 5))
      ∧ (upNext .engine (running 0x0000050A)).engineNext ∧ State.reset.busy = false ∧ State.reset.engineNext
      ∧ State.reset.runOver = true :=
  ⟨⟨rfl, .inl rfl, rfl⟩, .inr rfl, rfl, .inl rfl, rfl⟩

/-- The last byte offset of CMD's word is 0x0F. -/
theorem test_witness_CmdWriteAcceptsAnyWord :
    ((upNext (.write 0x0F 0xFFFFFFFF) State.reset).writeNext 0x0F 0xFFFFFFFF ∧ (0x0F#8).extractLsb' 2 6 = 0x03#6
        ∧ (upNext (.write 0x0F 0xFFFFFFFF) State.reset).busy = false)
      ∧ (upNext (.write 0x0C 0) (running 0)).writeNext 0x0C 0 ∧ (0x0C#8).extractLsb' 2 6 = 0x03#6
        ∧ (upNext (.write 0x0C 0) (running 0)).busy = true :=
  ⟨⟨rfl, rfl, rfl⟩, rfl, rfl, rfl⟩

/-- Every index is reached, by a read and by a write, and one event meets one clause alone. -/
theorem test_witness_AccessesWhileBusy :
    (running 0).busy = true
      ∧ (∀ o, (upNext (.read o) (running 0)).readNext o ∧ (upNext (.read o) (running 0)).busy = true)
      ∧ (∀ o v, (upNext (.write o v) (running 0)).writeNext o v ∧ (upNext (.write o v) (running 0)).busy = true)
      ∧ ((0x03#8).extractLsb' 2 6).toNat = 0x00 ∧ ((0x04#8).extractLsb' 2 6).toNat = 0x01
      ∧ ((0x08#8).extractLsb' 2 6).toNat = 0x02 ∧ ((0x0C#8).extractLsb' 2 6).toNat = 0x03
      ∧ ((0x10#8).extractLsb' 2 6).toNat = 0x04 ∧ ((0x14#8).extractLsb' 2 6).toNat = 0x05
      ∧ ((0x18#8).extractLsb' 2 6).toNat = 0x06 ∧ ((0x1C#8).extractLsb' 2 6).toNat = 0x07
      ∧ ((0x20#8).extractLsb' 2 6).toNat = 0x08 ∧ ((0x24#8).extractLsb' 2 6).toNat = 0x09
      ∧ ((0x28#8).extractLsb' 2 6).toNat = 0x0A ∧ ((0x2C#8).extractLsb' 2 6).toNat = 0x0B
      ∧ ((0x33#8).extractLsb' 2 6).toNat = 0x0C ∧ ((0x34#8).extractLsb' 2 6).toNat = 0x0D
      ∧ ((0xFF#8).extractLsb' 2 6).toNat = 0x3F ∧ (0x1#32).getLsbD 1 = false ∧ (0x2#32).getLsbD 1 = true :=
  ⟨rfl, fun _ => ⟨rfl, rfl⟩, fun _ _ => ⟨rfl, rfl⟩, by decide⟩

theorem test_witness_CommandInProgressKeepsOperands :
    let s := upNext (.write 0x10 5) (running 0)
    s.busy = true ∧ ¬s.engineNext ∧ ¬s.resetNext ∧ ¬s.softResetNext ∧ ∃ t, step s = .next t := by
  refine ⟨rfl, ?_, ?_, ?_, _, rfl⟩
  · rintro (h | h) <;> simp [upNext] at h
  · intro h; simp [State.resetNext, upNext] at h
  · rintro ⟨o, v, h, ho, -⟩
    have : o = 0x10 := by
      have h' : some (Event.write 0x10 5) = some (Event.write o v) := h
      simp only [Option.some.injEq, Event.write.injEq] at h'
      exact h'.1.symm
    subst this
    exact absurd ho (by decide)

theorem test_witness_StatusReadReturnsFields :
    (upNext (.read 0x08) State.reset).readNext 0x08 ∧ (0x08#8).extractLsb' 2 6 = 0x02#6 := ⟨rfl, rfl⟩

theorem test_witness_StatusWriteClearsFlags :
    (upNext (.write 0x08 0x1A) (running 0)).writeNext 0x08 0x1A ∧ (0x08#8).extractLsb' 2 6 = 0x02#6 := ⟨rfl, rfl⟩

theorem test_witness_CtrlHoldsInterruptEnable :
    (0x04#8).extractLsb' 2 6 = 0x01#6 ∧ (upNext (.read 0x04) State.reset).readNext 0x04
      ∧ (upNext (.write 0x04 1) State.reset).writeNext 0x04 1 ∧ (1#32).getLsbD 1 = false := ⟨rfl, rfl, rfl, rfl⟩

/-- A hardware and a soft reset of two states whose model fields agree. -/
theorem test_witness_ResetsGiveResetValues :
    let s := upNext .reset (running 0)
    let s' := upNext (.write 0x04 2) (one .raw [1])
    s.resetNext ∧ s'.softResetNext ∧ s'.schedule.tail = s.schedule.tail ∧ s'.rdata = s.rdata ∧ s'.draws = s.draws :=
  ⟨rfl, ⟨0x04, 2, rfl, rfl, rfl⟩, rfl, rfl, rfl⟩

/-- BIDX at CAP, at CAP - 1 over an undefined slot, and over a defined slot. UNDEF_READ is opaque, so of its two clauses
the one that holds is not known; one of them does. -/
theorem test_witness_BdataReadWhileIdle :
    let s := fun i => upNext (.read 0x24) { one .raw [7] with bidx := i }
    (∀ i, (s i).readNext 0x24 ∧ (s i).busy = false) ∧ (0x24#8).extractLsb' 2 6 = 0x09#6
      ∧ Config.cap ≤ (s capWord).bidx.toNat ∧ (s (capWord - 1)).bidx.toNat < Config.cap
      ∧ (s (capWord - 1)).slot 0 (s (capWord - 1)).bidx.toNat = none
      ∧ (s 0).bidx.toNat < Config.cap ∧ (s 0).slot 0 (s 0).bidx.toNat = some 7
      ∧ (Config.undefRead = .draw ∨ Config.undefRead = .fault) := by
  have h := Config.cap_ge
  have hs : (capWord - 1).toNat = Config.cap - 1 := capWord_sub_toNat
  refine ⟨fun _ => ⟨rfl, rfl⟩, rfl, Nat.le_of_eq capWord_toNat.symm, ?_, ?_, ?_, rfl, Config.undefRead_cases⟩
  · show (capWord - 1).toNat < Config.cap
    omega
  · have key : ∀ n, 1 ≤ n → (one .raw [7]).slot 0 n = none := fun n hn => by
      rw [one, State.slot_bufWrite, if_neg (by simp only [List.length_singleton]; omega)]
      rfl
    have h1 : 1 ≤ (capWord - 1).toNat := by omega
    generalize capWord - 1 = i at h1
    exact key i.toNat h1
  · show 0 < Config.cap
    omega

/-- BIDX at CAP; a HEX and a B64 buffer; a RAW and a TEXT buffer at CAP - 1. -/
theorem test_witness_BdataWriteWhileIdle :
    let s := fun e i => upNext (.write 0x24 0x155) { one e [7] with bidx := i }
    (∀ e i, (s e i).writeNext 0x24 0x155 ∧ (s e i).busy = false ∧ (0 : BufNum).val = (s e i).bsel.toNat
        ∧ ((s e i).buf 0).enc = e)
      ∧ (0x24#8).extractLsb' 2 6 = 0x09#6
      ∧ Config.cap ≤ (s .raw capWord).bidx.toNat ∧ (s .text (capWord - 1)).bidx.toNat < Config.cap := by
  have h := Config.cap_ge
  have hs : (capWord - 1).toNat = Config.cap - 1 := capWord_sub_toNat
  refine ⟨fun _ _ => ⟨rfl, rfl, rfl, rfl⟩, rfl, Nat.le_of_eq capWord_toNat.symm, ?_⟩
  show (capWord - 1).toNat < Config.cap
  omega

/-- A length of CAP + 1 and of CAP, and buffers of every tag. -/
theorem test_witness_BlenWriteWhileIdle :
    let s := fun e v => upNext (.write 0x28 v) (one e [7])
    (∀ e v, (s e v).writeNext 0x28 v ∧ (s e v).busy = false ∧ (0 : BufNum).val = (s e v).bsel.toNat
        ∧ ((s e v).buf 0).enc = e)
      ∧ (0x28#8).extractLsb' 2 6 = 0x0A#6 ∧ Config.cap < (capWord + 1).toNat ∧ capWord.toNat ≤ Config.cap :=
  ⟨fun _ _ => ⟨rfl, rfl, rfl, rfl⟩, rfl, by rw [capWord_add_toNat]; omega,
    Nat.le_of_eq capWord_toNat⟩

theorem test_witness_BencWriteWhileIdle :
    let s := fun v => upNext (.write 0x2C v) (one .hex [7])
    (∀ v, (s v).writeNext 0x2C v ∧ (s v).busy = false ∧ (0 : BufNum).val = (s v).bsel.toNat)
      ∧ (0x2C#8).extractLsb' 2 6 = 0x0B#6 ∧ (0xFFFFFFFD#32).toNat % 4 < 2 ∧ 2 ≤ (0xFFFFFFFE#32).toNat % 4 :=
  ⟨fun _ => ⟨rfl, rfl, rfl⟩, rfl, by decide, by decide⟩

theorem test_witness_IdleReadsReturnRegisters :
    ∀ o, (upNext (.read o) { State.reset with bsel := 7 }).readNext o
      ∧ (upNext (.read o) { State.reset with bsel := 7 }).busy = false
      ∧ (7 : BufNum).val = (upNext (.read o) { State.reset with bsel := 7 }).bsel.toNat := fun _ => ⟨rfl, rfl, rfl⟩

theorem test_witness_IdleWritesStoreRegisters :
    ∀ o v, (upNext (.write o v) State.reset).writeNext o v ∧ (upNext (.write o v) State.reset).busy = false :=
  fun _ _ => ⟨rfl, rfl⟩

/-- The empty string, and a string of exactly CAP bytes. -/
theorem test_witness_LoadScriptFillsBuffer :
    let s := fun bytes => { State.reset with schedule := scriptLoad 7 .text bytes }
    (∀ bytes, (s bytes).busy = false ∧ (s bytes).schedule = scriptLoad 7 .text bytes)
      ∧ ([] : List Byte).length ≤ Config.cap ∧ (zeros Config.cap).length ≤ Config.cap :=
  ⟨fun _ => ⟨rfl, rfl⟩, Nat.zero_le _, by simp [zeros]⟩

theorem reset_allDefined (b : BufNum) : State.reset.allDefined b := by
  intro i hi
  simp [Buffer.empty] at hi

/-- A state with defined operands, so that the hypothesis holds whatever UNDEF_READ is. -/
theorem test_witness_EveryCommandCompletes :
    Config.undefRead = .draw ∨ ∀ b, (one .raw [1, 2]).allDefined b := by
  refine .inr fun b => ?_
  by_cases h : b = 0
  · subst h; exact one_allDefined _ _
  · intro i hi
    have hb : (one .raw [1, 2]).buf b = State.reset.buf b := State.buf_bufWrite_other _ _ _ _ _ h
    rw [hb] at hi
    simp [Buffer.empty] at hi

/-- V-Y13 of 95_test_vectors.md: a command that reads an undefined slot faults where UNDEF_READ is `fault`. -/
theorem test_witness_CommandsFaultOnlyAtUndefinedSlots :
    Config.undefRead = .fault →
      exec (.render 1 0) (State.reset.setBuf 0 { Buffer.empty with len := 2 }) =
        .fault (.undefinedOperand "RENDER" 0 0) := by
  intro h
  have hs : (({ Buffer.empty with len := 2 } : Buffer).syms 0) = .error 0 := by
    simp [Buffer.syms, Buffer.empty, readSeq, readSlot, Memory.read, h]
  simp [exec, execRender, withSyms, Buffer.isStorage, Buffer.empty] at hs ⊢
  have hd : State.reset.draws = 0 := rfl
  simp [hd, hs]

/-- A defined buffer; and, where UNDEF_READ is `fault`, a buffer whose first undefined slot is slot 1 of 2. -/
theorem test_witness_OperandReadsFollowUndefRead :
    (∀ k, k < ((one .raw [1, 2]).buf 0).len → ((one .raw [1, 2]).buf 0).sym.read k ≠ none)
      ∧ (let b : Buffer := { Buffer.empty with len := 2, sym := [(0, 5)] }
         1 < b.len ∧ b.sym.read 1 = none ∧ ∀ j, j < 1 → b.sym.read j ≠ none) :=
  ⟨one_allDefined _ _, by decide, rfl, by decide⟩

theorem test_witness_CompletionsSetStatus : ∃ t, exec (.stst 0) State.reset = .next t := ⟨_, rfl⟩

theorem test_witness_FailingCommandsWriteOnlyStatus :
    (∃ t, exec .decblk State.reset = .next t ∧ t.errcode ≠ 0)
      ∧ (running 0x00000012).busy = true ∧ (running 0x00000012).engineNext
      ∧ ∃ t, step (running 0x00000012) = .next t ∧ t.errcode ≠ 0 :=
  ⟨⟨_, rfl, by decide⟩, rfl, .inl rfl, _, rfl, by decide⟩

theorem test_witness_CommandsWriteOnlyTheirTargets :
    (∃ t, exec (.stst 5) State.reset = .next t) ∧ ¬writesResult (.stst 5) ∧ ¬writesSt (.stst 5)
      ∧ ¬writesKeys (.stst 5) ∧ destOf (.stst 5) ≠ some 4 :=
  ⟨⟨_, rfl⟩, by simp [writesResult], by simp [writesSt], by simp [writesKeys], by decide⟩

/-- KSV falls at a reset and rises at a KEYEXP. -/
theorem test_witness_KsvChangesOnlyByKeysAndReset :
    (let s := upNext .reset { State.reset with ksv := true }
     s.ksv = true ∧ ∃ t, step s = .next t ∧ t.ksv = false)
      ∧ (let s := (one .raw key1).accept 0x00000007
         s.ksv = false ∧ ∃ t, step s = .next t ∧ t.ksv = true) :=
  ⟨⟨rfl, _, rfl, rfl⟩, rfl, _, rfl, rfl⟩

theorem one_slot (e : Enc) (q : List Byte) (b : BufNum) (i : Nat) :
    (one e q).slot b i = if b = 0 ∧ i < q.length then q[i]? else none := by
  rw [one, State.slot_bufWrite]
  split
  · rfl
  · simp [State.slot, Buffer.empty, Memory.read]

/-- A running PARSE over a text: every invariant's premise, and the step answers a next state. -/
theorem test_witness_StepKeepsBuffersFit :
    BuffersFit ((one .text [0x34]).accept 0x00000101) ∧ ∃ t, step ((one .text [0x34]).accept 0x00000101) = .next t := by
  refine ⟨fun b => ?_, _, rfl⟩
  have hc := Config.cap_ge
  by_cases h : b = 0
  · subst h
    have hb : ((one .text [0x34]).accept 0x00000101).buf 0 = { enc := .text, len := 1, sym := [(0, 0x34)] } := rfl
    rw [hb]
    refine ⟨by decide, by show 1 ≤ Config.cap; omega, fun c hc' => ?_⟩
    obtain rfl : c = (0, 0x34) := by simpa using hc'
    show 0 < Config.cap
    omega
  · have hb : ((one .text [0x34]).accept 0x00000101).buf b = State.reset.buf b :=
      State.buf_bufWrite_other _ _ _ _ _ h
    rw [hb, State.reset_buf]
    refine ⟨by decide, Nat.zero_le _, fun c hc' => ?_⟩
    simp [Buffer.empty] at hc'

/-- A running RENDER over a HEX buffer. -/
theorem test_witness_StepKeepsSymbolsValid :
    SymbolsValid ((one .hex [15]).accept 0x00000002) ∧ ∃ t, step ((one .hex [15]).accept 0x00000002) = .next t := by
  refine ⟨fun b i hi => ?_, _, rfl⟩
  by_cases h : b = 0
  · subst h
    have hi' : i = 0 := by
      have : i < 1 := hi
      omega
    subst hi'
    refine ⟨fun v hv => ?_, fun _ hn => ?_⟩
    · have hv' : some (15 : Byte) = some v := hv
      obtain rfl := by simpa using hv'
      rfl
    · have hn' : some (15 : Byte) = none := hn
      exact absurd hn' (by decide)
  · have hb : ((one .hex [15]).accept 0x00000002).buf b = State.reset.buf b := State.buf_bufWrite_other _ _ _ _ _ h
    rw [hb] at hi
    simp [Buffer.empty] at hi

theorem test_witness_StepKeepsKeysValid :
    KeysValid ((keyed key1 key1).accept 0x0000000F) ∧ ∃ t, step ((keyed key1 key1).accept 0x0000000F) = .next t :=
  ⟨fun _ => ⟨block key1, rfl⟩, _, rfl⟩

theorem test_witness_StepKeepsStatusLegal :
    StatusLegal ((running 0x0000000F)) ∧ ∃ t, step (running 0x0000000F) = .next t :=
  ⟨⟨by decide, fun _ => ⟨rfl, rfl⟩⟩, _, rfl⟩

/-- PARSE of a RAW buffer, of an invalid character, and of valid ones. -/
theorem test_witness_ParseMapsCharacters :
    ((one .raw [0x34]).buf 0).enc ≠ .text
      ∧ ((one .text [0x34, 0x67]).buf 0).enc = .text ∧ (one .text [0x34, 0x67]).Reads 0 0 [0x34, 0x67] 0
      ∧ (∃ c, c ∈ ([0x34, 0x67] : List Byte) ∧ charToSym .hex c = none)
      ∧ ([0x34, 0x46] : List Byte).map (charToSym .hex) = ([4, 15] : List Byte).map some :=
  ⟨by decide, rfl, reads_one _ _ _, ⟨0x67, by decide, by decide⟩, by decide⟩

theorem test_witness_RenderMapsSymbols :
    ((one .text [0x34]).buf 0).enc = .text ∧ ((one .hex [15]).buf 0).enc ≠ .text
      ∧ (one .hex [15]).Reads 0 (one .hex [15]).draws [15] 0 := ⟨rfl, by decide, reads_one _ _ _⟩

/-- Codes at both ends of every range of R91, and beside them; the last valid HEX symbol and the B64 sentinel. -/
theorem test_witness_AlphabetsAreInverse :
    [0x30, 0x39, 0x41, 0x46, 0x61, 0x66, 0x2F, 0x3A, 0x40, 0x47, 0x60, 0x67].map (charToSym .hex)
        = [some 0, some 9, some 10, some 15, some 10, some 15, none, none, none, none, none, none]
      ∧ [0x41, 0x5A, 0x61, 0x7A, 0x30, 0x39, 0x2B, 0x2F, 0x3D, 0x2A, 0x2C, 0x3A, 0x3E, 0x40, 0x5B, 0x60, 0x7B].map
          (charToSym .b64)
        = [some 0, some 25, some 26, some 51, some 52, some 61, some 62, some 63, some 255, none, none, none, none, none,
          none, none, none]
      ∧ validSym .hex 15 = true ∧ validSym .b64 255 = true := by decide

theorem reads_cap (e : Enc) (d : Nat) : (one e (zeros Config.cap)).Reads 0 d (zeros Config.cap) d := reads_one _ _ _

/-- Each clause of CONVERT: TEXT; an odd HEX length; a sentinel to HEX; non-zero pad bits; a result of 2 CAP symbols; a
result of exactly CAP symbols. -/
theorem test_witness_ConvertPacksOrFails :
    ((one .text []).buf 0).enc = .text
      ∧ ((one .hex [1]).Reads 0 0 [1] 0 ∧ [1].length % convertUnit ((one .hex [1]).buf 0).enc .raw ≠ 0)
      ∧ ([255, 0].length % convertUnit .b64 .hex = 0 ∧ paddingRefused .b64 .hex [255, 0])
      ∧ ([16, 17, 255, 255].length % convertUnit .b64 .raw = 0 ∧ paddingRefused .b64 .raw [16, 17, 255, 255])
      ∧ (((one .raw (zeros Config.cap)).Reads 0 0 (zeros Config.cap) 0
          ∧ (zeros Config.cap).length % convertUnit .raw .hex = 0 ∧ ¬paddingRefused .raw .hex (zeros Config.cap)
          ∧ Config.cap < convertLength .raw .hex (zeros Config.cap)
          ∧ convertLength .raw .raw (zeros Config.cap) ≤ Config.cap)) := by
  have h := Config.cap_ge
  refine ⟨rfl, ⟨reads_one _ _ _, by decide⟩, ⟨by decide, ?_⟩, ⟨by decide, ?_⟩, reads_cap _ _, ?_, id, ?_, ?_⟩
  · simp [paddingRefused]
  · refine .inr (.inr ?_)
    decide
  · simp [convertUnit, Nat.mod_one]
  · simp only [convertLength, zeros, List.length_replicate]
    omega
  · simp [convertLength, zeros]

theorem test_witness_ConversionLengthsFollowTable :
    (∀ v, v ∈ ([16, 20, 8, 255] : List Byte) → validSym .b64 v = true)
      ∧ pack .b64 .raw [16, 20, 8, 255] = .ok [0x41, 0x42] := ⟨by decide, rfl⟩

theorem test_witness_ConversionRegroupsBits :
    (∀ v, v ∈ ([0x41] : List Byte) → validSym .raw v = true) ∧ pack .raw .b64 [0x41] = .ok [16, 16, 255, 255] :=
  ⟨by decide, rfl⟩

/-- A conversion that the pair of encodings accepts and that fits completes with NONE. -/
theorem convert_completes {s : State} {q r : List Byte} {n : Nat} (hs : (s.buf 0).isStorage = true)
    (hq : s.Reads 0 s.draws q n) (hp : pack (s.buf 0).enc .raw q = .ok r) (hc : r.length ≤ Config.cap) :
    ∃ t, exec (.convert 0 0 .raw) s = .next t ∧ t.errcode = 0 := by
  refine ⟨((s.withDraws n).bufWrite 0 .raw r).complete .none, ?_, rfl⟩
  simp [exec, execConvert, Enc.nameable, hs, withSyms_ok hq, hp, Nat.not_lt.2 hc]

theorem test_witness_ConversionRoundTrips :
    let s := one .b64 [16, 20, 8, 255]
    (s.buf 0).enc.nameable = true ∧ s.Reads 0 s.draws [16, 20, 8, 255] 0
      ∧ (∀ v, v ∈ ([16, 20, 8, 255] : List Byte) → validSym (s.buf 0).enc v = true)
      ∧ ([16, 20, 8, 255] : List Byte).length ≤ Config.cap
      ∧ ∃ t, exec (.convert 0 0 .raw) s = .next t ∧ t.errcode = 0 := by
  have h := Config.cap_ge
  refine ⟨rfl, reads_one _ _ _, by decide, by simp only [List.length_cons, List.length_nil]; omega, ?_⟩
  exact convert_completes rfl (reads_one _ _ _) (r := [0x41, 0x42]) rfl (by simp only [List.length_cons, List.length_nil]; omega)

/-- SLICE with start after end, start and end past the length, and start and end at the length. -/
theorem test_witness_SliceCopiesRange :
    let s := fun i j => { one .raw [1, 2] with arg0 := i, arg1 := j }
    ((one .text []).buf 0).enc = .text ∧ (∀ i j, ((s i j).buf 0).enc ≠ .text ∧ (s i j).Reads 0 (s i j).draws [1, 2] 0)
      ∧ (s 2 1).arg1.toNat < (s 2 1).arg0.toNat ∧ ((s 3 3).buf 0).len < (s 3 3).arg0.toNat
      ∧ ((s 0 3).buf 0).len < (s 0 3).arg1.toNat
      ∧ (s 2 2).arg0.toNat ≤ (s 2 2).arg1.toNat ∧ (s 2 2).arg1.toNat ≤ ((s 2 2).buf 0).len :=
  ⟨rfl, fun _ _ => ⟨by show Enc.raw ≠ .text; decide, reads_one .raw [1, 2] 0⟩, by decide, by decide, by decide,
    by decide, by decide⟩

/-- Each clause of XOR: TEXT; unlike tags; an empty operand; a key that does not divide; an invalid B64 result; a valid
one. -/
theorem test_witness_XorCyclesKey :
    ((two .text [] .text []).buf 0).enc = .text
      ∧ ((two .hex [1] .raw [1]).buf 0).enc ≠ ((two .hex [1] .raw [1]).buf 1).enc
      ∧ (∀ qa qb, ((two .b64 qa .b64 qb).buf 0).enc = .b64
          ∧ ((two .b64 qa .b64 qb).buf 0).enc = ((two .b64 qa .b64 qb).buf 1).enc
          ∧ (two .b64 qa .b64 qb).Reads 0 (two .b64 qa .b64 qb).draws qa 0 ∧ (two .b64 qa .b64 qb).Reads 1 0 qb 0)
      ∧ [1, 2, 3].length % [1, 2].length ≠ 0 ∧ [255].length % [5].length = 0
      ∧ (∃ v, v ∈ xorResult [255] [5] ∧ 63 < v.toNat ∧ v ≠ 255)
      ∧ ¬∃ v, v ∈ xorResult [255] [0] ∧ 63 < v.toNat ∧ v ≠ 255 := by
  refine ⟨rfl, by decide, fun qa qb => ⟨rfl, rfl, reads_two_fst _ _ _ _ _, reads_two_snd _ _ _ _ _⟩, by decide,
    by decide, ⟨250, by decide, by decide, by decide⟩, ?_⟩
  rintro ⟨v, hv, -, hn⟩
  obtain rfl : v = 255 := by simpa [xorResult] using hv
  exact hn rfl

/-- Repeating XOR of two symbols by one; and a buffer with itself. -/
theorem test_witness_XorIsInvolution :
    let s := two .hex [15, 0] .hex [3]
    (0 : BufNum) ≠ 1 ∧ s.allDefined 1 ∧ s.Reads 0 s.draws [15, 0] 0
      ∧ (∀ v, v ∈ ([15, 0] : List Byte) → validSym (s.buf 0).enc v = true)
      ∧ (∃ t, exec (.xor 0 0 1) s = .next t ∧ t.errcode = 0)
      ∧ (s.buf 0).enc ≠ .text ∧ 0 < (s.buf 0).len ∧ s.allDefined 0 := by
  refine ⟨by decide, ?_, reads_two_fst _ _ _ _ _, by decide, ⟨_, rfl, rfl⟩, by decide, by decide, ?_⟩
  · intro i hi
    have hi' : i < 1 := hi
    obtain rfl : i = 0 := by omega
    decide
  · intro i hi
    have hi' : i < 2 := hi
    obtain rfl | rfl : i = 0 ∨ i = 1 := by omega
    · decide
    · decide

/-- Each clause of HAMM: TEXT, unlike tags, unlike lengths, and two operands it accepts. -/
theorem test_witness_HammCountsDifferingBits :
    ((two .text [] .text []).buf 0).enc = .text ∧ ((two .hex [1] .b64 [1]).buf 0).enc ≠ ((two .hex [1] .b64 [1]).buf 1).enc
      ∧ ((two .raw [1, 2] .raw [1]).buf 0).enc ≠ .text
      ∧ ((two .raw [1, 2] .raw [1]).buf 0).len ≠ ((two .raw [1, 2] .raw [1]).buf 1).len
      ∧ (let s := two .b64 [255] .b64 [0]
         (s.buf 0).enc = (s.buf 1).enc ∧ (s.buf 0).len = (s.buf 1).len ∧ s.Reads 0 s.draws [255] 0 ∧ s.Reads 1 0 [0] 0
          ∧ (s.buf 0).len ≤ Config.cap) := by
  have h := Config.cap_ge
  refine ⟨rfl, by decide, by decide, by decide, rfl, rfl, reads_two_fst _ _ _ _ _, reads_two_snd _ _ _ _ _, ?_⟩
  show 1 ≤ Config.cap
  omega

theorem test_witness_HammIsSymmetric :
    let s := two .b64 [255] .b64 [0]
    s.allDefined 0 ∧ s.allDefined 1 ∧ (s.buf 0).enc ≠ .text ∧ (s.buf 0).enc = (s.buf 1).enc
      ∧ (s.buf 0).len = (s.buf 1).len := by
  refine ⟨?_, ?_, by decide, rfl, rfl⟩ <;>
  · intro i hi
    have hi' : i < 1 := hi
    obtain rfl : i = 0 := by omega
    decide

/-- KEYEXP of a HEX buffer, of 15 and of 17 bytes, and of 16. -/
theorem test_witness_KeyexpExpandsKey :
    ((one .hex (zeros 16)).buf 0).enc ≠ .raw ∧ ((one .raw (zeros 15)).buf 0).enc = .raw
      ∧ ((one .raw (zeros 15)).buf 0).len ≠ 16 ∧ ((one .raw (zeros 17)).buf 0).len ≠ 16
      ∧ ((one .raw key1).buf 0).len = 16 ∧ (one .raw key1).Reads 0 (one .raw key1).draws key1 0 :=
  ⟨by decide, rfl, by decide, by decide, rfl, reads_one _ _ _⟩

/-- DECECB of TEXT, of 17 bytes, of a 15-byte key, and of one block, whose only block is block 0. -/
theorem test_witness_DececbDecryptsBlocks :
    ((two .text (zeros 16) .raw key1).buf 0).enc ≠ .raw
      ∧ (∀ q k, ((two .raw q .raw k).buf 0).enc = .raw ∧ ((two .raw q .raw k).buf 1).enc = .raw
          ∧ (two .raw q .raw k).Reads 1 (two .raw q .raw k).draws k 0 ∧ (two .raw q .raw k).Reads 0 0 q 0)
      ∧ ((two .raw (zeros 17) .raw (zeros 15)).buf 0).len % 16 ≠ 0
      ∧ ((two .raw (zeros 32) .raw (zeros 15)).buf 0).len % 16 = 0
      ∧ ((two .raw (zeros 32) .raw (zeros 15)).buf 1).len ≠ 16
      ∧ ((two .raw (zeros 16) .raw key1).buf 1).len = 16 ∧ 16 * 0 + 16 ≤ (zeros 16).length
      ∧ ∀ l : Fin 16, (zeros 16)[16 * 0 + l.val]? = some (Block.zero.get l) :=
  ⟨by decide, fun _ _ => ⟨rfl, rfl, reads_two_snd _ _ _ _ _, reads_two_fst _ _ _ _ _⟩, by decide, by decide, by decide,
    rfl, by decide, by decide⟩

/-- The two equal blocks of W5. -/
theorem test_witness_EqualBlocksDecryptEqually :
    let s := two .raw (zeros 32) .raw (zeros 16)
    s.Reads 1 s.draws (zeros 16) 0 ∧ s.Reads 0 0 (zeros 32) 0
      ∧ (∃ t, exec (.dececb 2 0 1) s = .next t ∧ t.errcode = 0) ∧ 16 * 0 + 16 ≤ (zeros 32).length
      ∧ 16 * 1 + 16 ≤ (zeros 32).length ∧ ∀ i, i < 16 → (zeros 32)[16 * 0 + i]? = (zeros 32)[16 * 1 + i]? :=
  ⟨reads_two_snd _ _ _ _ _, reads_two_fst _ _ _ _ _, ⟨_, rfl, rfl⟩, by decide, by decide, by decide⟩

theorem test_witness_ZeroKeyKnownAnswer :
    let ct : List Byte :=
      [0x66, 0xe9, 0x4b, 0xd4, 0xef, 0x8a, 0x2c, 0x3b, 0x88, 0x4c, 0xfa, 0x59, 0xca, 0x34, 0x2b, 0x2e]
    let s := two .raw ct .raw (zeros 16)
    (s.buf 0).enc = .raw ∧ (s.buf 0).len = 16 ∧ (∀ i, i < 16 → s.slot 0 i = ct[i]?) ∧ (s.buf 1).enc = .raw
      ∧ (s.buf 1).len = 16 ∧ ∀ i, i < 16 → s.slot 1 i = some 0 :=
  ⟨rfl, rfl, by decide, rfl, rfl, by decide⟩

theorem test_witness_StldLoadsState :
    ((one .text (zeros 16)).buf 0).enc ≠ .raw ∧ ((one .raw (zeros 17)).buf 0).len ≠ 16
      ∧ ((one .raw key1).buf 0).enc = .raw ∧ ((one .raw key1).buf 0).len = 16
      ∧ (one .raw key1).Reads 0 (one .raw key1).draws key1 0 := ⟨by decide, by decide, rfl, rfl, reads_one _ _ _⟩

theorem test_witness_ArkXorsRoundKey :
    State.reset.ksv = false ∧ (keyed key1 key1).ksv = true
      ∧ 10 < ({ keyed key1 key1 with arg0 := 11 } : State).arg0.toNat
      ∧ ({ keyed key1 key1 with arg0 := 10 } : State).arg0.toNat = (10 : Fin 11).val := ⟨rfl, rfl, by decide, rfl⟩

theorem test_witness_DecblkDecryptsState : State.reset.ksv = false ∧ (keyed key1 key1).ksv = true := ⟨rfl, rfl⟩

theorem test_witness_DecblkEqualsRoundCommands : (keyed key1 key1).ksv = true := rfl

theorem test_witness_RkrdCopiesRoundKey :
    State.reset.ksv = false ∧ (keyed key1 key1).ksv = true
      ∧ 10 < ({ keyed key1 key1 with arg0 := 11 } : State).arg0.toNat
      ∧ ({ keyed key1 key1 with arg0 := 10 } : State).arg0.toNat = (10 : Fin 11).val := ⟨rfl, rfl, by decide, rfl⟩

/-- Table 7; RCON[0] and RCON[11]; entry 256; table 6, entry 255; RCON[1] and RCON[10]. -/
theorem test_witness_TblrdReadsTables :
    let s := fun i t => { State.reset with arg0 := i, arg1 := t }
    6 < (s 0 7).arg1.toNat ∧ ((s 0 2).arg1.toNat = 2 ∧ (s 0 2).arg0.toNat < 1) ∧ 10 < (s 11 2).arg0.toNat
      ∧ ((s 256 0).arg1.toNat ≠ 2 ∧ 255 < (s 256 0).arg0.toNat)
      ∧ ((s 255 6).arg1.toNat ≤ 6 ∧ (s 255 6).arg1.toNat ≠ 2 ∧ (s 255 6).arg0.toNat = (255 : Byte).toNat)
      ∧ (1 ≤ (s 1 2).arg0.toNat ∧ (s 10 2).arg0.toNat ≤ 10) := by decide

/-- Two states that differ in a slot above len and in RK while KSV = 0. -/
theorem test_witness_CommandsIgnoreUnobservableState :
    let s := State.reset.setBuf 0 { Buffer.empty with sym := [(0, 5)] }
    let t := { State.reset with rk := keyExpansion Block.zero }
    SameValues s t ∧ s.bufs ≠ t.bufs ∧ s.rk ≠ t.rk := by
  refine ⟨?_, by decide, by decide⟩
  constructor <;> try rfl
  · decide
  · decide
  · intro b i hi
    have hl : ∀ b, ((State.reset.setBuf 0 { Buffer.empty with sym := [(0, 5)] }).buf b).len = 0 := by decide
    rw [hl b] at hi
    exact absurd hi (Nat.not_lt_zero i)
  · intro hk
    exact absurd hk (by decide)

end Sys2Proof.Tests
end

section
/-! Proofs of the family 00_scope: what `Syms` of R8 reads under each treatment of UNDEF_READ (R57). -/

namespace Sys2Proof.Machine

/-! ## One slot -/

@[simp] theorem readSlot_draw {m : Memory} {i : Nat} (d : Nat) (hn : m.read i = none)
    (hu : Config.undefRead = .draw) : readSlot m i d = some (Config.freeByte d, d + 1) := by
  simp [readSlot, hn, hu]

@[simp] theorem readSlot_fault {m : Memory} {i : Nat} (d : Nat) (hn : m.read i = none)
    (hu : Config.undefRead = .fault) : readSlot m i d = none := by
  simp [readSlot, hn, hu]

/-! ## The number of undefined slots -/

@[simp] theorem undefinedBelow_zero (b : Buffer) : undefinedBelow b 0 = 0 := rfl

theorem undefinedBelow_succ_of_defined {b : Buffer} {k : Nat} {v : Byte} (h : b.sym.read k = some v) :
    undefinedBelow b (k + 1) = undefinedBelow b k := by
  simp [undefinedBelow, List.range_succ, h]

theorem undefinedBelow_succ_of_undefined {b : Buffer} {k : Nat} (h : b.sym.read k = none) :
    undefinedBelow b (k + 1) = undefinedBelow b k + 1 := by
  simp [undefinedBelow, List.range_succ, h]

/-! ## A read that goes through -/

/-- The symbol a read of buffer `b`, begun after `d` draws, gives for slot `k`: each undefined slot below `k` has drawn
once by then (log entry 3). -/
def Buffer.symbolRead (b : Buffer) (d k : Nat) : Byte :=
  (b.sym.read k).getD (Config.freeByte (d + undefinedBelow b k))

/-- Reading slot `i` keeps the count of draws in step with the undefined slots met so far. -/
theorem readSlot_symbolRead {b : Buffer} {i : Nat} (d : Nat)
    (h : Config.undefRead = .draw ∨ b.sym.read i ≠ none) :
    readSlot b.sym i (d + undefinedBelow b i) = some (b.symbolRead d i, d + undefinedBelow b (i + 1)) := by
  cases hr : b.sym.read i with
  | some v => simp [Buffer.symbolRead, hr, undefinedBelow_succ_of_defined hr]
  | none =>
    have hu : Config.undefRead = .draw := h.resolve_right (not_not_intro hr)
    simp [Buffer.symbolRead, hr, hu, undefinedBelow_succ_of_undefined hr, Nat.add_assoc]

/-- The slots from `i` on, read after the slots below `i`: the count of draws is the one the undefined slots below `i`
leave. -/
theorem readSeq_symbolRead {b : Buffer} {n i : Nat} (d : Nat)
    (h : Config.undefRead = .draw ∨ ∀ k, k < i + n → b.sym.read k ≠ none) :
    readSeq b.sym i n (d + undefinedBelow b i)
      = .ok ((List.range' i n).map (b.symbolRead d), d + undefinedBelow b (i + n)) := by
  induction n generalizing i with
  | zero => rfl
  | succ n ih =>
    have hslot := readSlot_symbolRead d (h.imp_right fun hk => hk i (by omega))
    have hrest := ih (i := i + 1) (h.imp_right fun hk k hlt => hk k (by omega))
    simp [readSeq, hslot, hrest, List.range'_succ, Nat.add_assoc, Nat.add_comm 1 n]

/-- `Syms(b)` where no slot below len faults (R8). -/
theorem Buffer.syms_symbolRead {b : Buffer} (d : Nat)
    (h : Config.undefRead = .draw ∨ ∀ k, k < b.len → b.sym.read k ≠ none) :
    b.syms d = .ok ((List.range b.len).map (b.symbolRead d), d + undefinedBelow b b.len) := by
  simpa [Buffer.syms, List.range_eq_range'] using readSeq_symbolRead (n := b.len) (i := 0) d (by simpa using h)

/-! ## A read that stops -/

/-- The read steps over the defined slots and stops at the first undefined one (R7, R57). -/
theorem readSeq_first_undefined {m : Memory} {n i k : Nat} (d : Nat) (hu : Config.undefRead = .fault)
    (hik : i ≤ k) (hk : k < i + n) (hn : m.read k = none) (hdef : ∀ j, j < k → m.read j ≠ none) :
    readSeq m i n d = .error k := by
  induction n generalizing i with
  | zero => omega
  | succ n ih =>
    rcases Nat.eq_or_lt_of_le hik with rfl | hlt
    · simp [readSeq, hn, hu]
    · obtain ⟨v, hv⟩ := Option.ne_none_iff_exists'.1 (hdef i hlt)
      have hrest := ih hlt (by omega)
      simp [readSeq, readSlot_defined hv, hrest]

/-- `Syms(b)` where UNDEF_READ is `fault` and a slot below len is undefined (R57). -/
theorem Buffer.syms_first_undefined {b : Buffer} {k : Nat} (d : Nat) (hu : Config.undefRead = .fault)
    (hk : k < b.len) (hn : b.sym.read k = none) (hdef : ∀ j, j < k → b.sym.read j ≠ none) :
    b.syms d = .error k :=
  readSeq_first_undefined d hu (Nat.zero_le k) (by omega) hn hdef

/-- Settles O24: a read that goes through is `Buffer.syms_symbolRead`, one that stops `Buffer.syms_first_undefined`. -/
theorem operandReadsFollowUndefRead : Obligations.OperandReadsFollowUndefRead := fun _ d =>
  ⟨fun h => Buffer.syms_symbolRead d h, fun hu _ hk hn hdef => Buffer.syms_first_undefined d hu hk hn hdef⟩

end Sys2Proof.Machine
end

section
/-! Proofs of the family 10_state: what one step of a run can do to the buffers and the keys, the invariants that follow
from it, the HOST's registers, reset, and that commands read no unobservable state. -/

namespace Sys2Proof.Machine

/-! ## The step by whose turn it is (R158) -/

theorem step_of_readNext {s : State} {o : BitVec 8} (h : s.readNext o) : step s = hostRead o s.advance := by
  obtain ⟨es, hs⟩ := List.head?_eq_some_iff.1 h
  simp [step, hs]

theorem step_of_writeNext {s : State} {o : BitVec 8} {v : Word} (h : s.writeNext o v) :
    step s = .next (hostWrite o v s.advance) := by
  obtain ⟨es, hs⟩ := List.head?_eq_some_iff.1 h
  simp [step, hs]

theorem step_of_resetNext {s : State} (h : s.resetNext) : step s = .next s.advance.resetBlock := by
  obtain ⟨es, hs⟩ := List.head?_eq_some_iff.1 h
  simp [step, hs]

/-- Where no event is left, taking one off the schedule changes nothing. -/
theorem State.advance_of_no_event {s : State} (h : s.schedule = []) : s.advance = s := by
  cases s; simp_all [State.advance]

theorem step_of_engineNext {s : State} (h : s.engineNext) : step s = engineTurn s.advance := by
  rcases h with h | h
  · have hs := List.head?_eq_none_iff.1 h
    simp [step, hs, State.advance_of_no_event hs]
  · obtain ⟨es, hs⟩ := List.head?_eq_some_iff.1 h
    simp [step, hs]

/-- The four kinds of event, one of which is next in every state. -/
theorem State.turn_cases (s : State) :
    s.engineNext ∨ (∃ o, s.readNext o) ∨ (∃ o v, s.writeNext o v) ∨ s.resetNext := by
  rcases hs : s.schedule with _ | ⟨e, es⟩
  · exact .inl (.inl (by simp [hs]))
  · cases e with
    | engine => exact .inl (.inr (by simp [hs]))
    | read o => exact .inr (.inl ⟨o, by simp [State.readNext, hs]⟩)
    | write o v => exact .inr (.inr (.inl ⟨o, v, by simp [State.writeNext, hs]⟩))
    | reset => exact .inr (.inr (.inr (by simp [State.resetNext, hs])))

/-! ## The register map (R44) -/

theorem regAt_ctrl {o : BitVec 8} (h : o.extractLsb' 2 6 = 0x01#6) : regAt o = .ctrl := by simp [regAt, h]

theorem regAt_status {o : BitVec 8} (h : o.extractLsb' 2 6 = 0x02#6) : regAt o = .status := by simp [regAt, h]

/-- CTRL has one offset (R44). -/
theorem index_of_regAt_ctrl {o : BitVec 8} (h : regAt o = .ctrl) : o.extractLsb' 2 6 = 0x01#6 := by
  unfold regAt at h
  split at h
  case h_2 hi => exact BitVec.eq_of_toNat_eq hi
  all_goals contradiction

/-- The offsets 0x34 to 0xFC (R42). -/
theorem regAt_unmapped {o : BitVec 8} (h : 0x0D ≤ (o.extractLsb' 2 6).toNat) : regAt o = .unmapped := by
  unfold regAt
  split
  case h_14 => rfl
  all_goals omega


/-! ## The symbols of an operand (R8) -/

/-- R15, R17 of one buffer. -/
def Buffer.Fits (b : Buffer) : Prop := b.sym.wf ∧ b.len ≤ Config.cap ∧ ∀ c ∈ b.sym, c.1 < Config.cap

/-- R18 of one buffer (definedness: log entry 14). -/
def Buffer.SymbolsValid (b : Buffer) : Prop :=
  ∀ i, i < b.len → (∀ v, b.sym.read i = some v → validSym b.enc v = true)
    ∧ (b.enc = .hex ∨ b.enc = .b64 → b.sym.read i ≠ none)

/-- Every symbol of a sequence is valid for an encoding. -/
def SymsValid (e : Enc) (q : List Byte) : Prop := ∀ v ∈ q, validSym e v = true

theorem buffersFit_iff (s : State) : BuffersFit s ↔ ∀ b, (s.buf b).Fits := Iff.rfl

theorem symbolsValid_iff (s : State) : SymbolsValid s ↔ ∀ b, (s.buf b).SymbolsValid := Iff.rfl

theorem Buffer.length_of_syms {b : Buffer} {d d' : Nat} {q : List Byte} (h : b.syms d = .ok (q, d')) :
    q.length = b.len := (readSeq_ok h).1

/-- The symbols read are valid for the tag: in a HEX or B64 buffer every one of them is a stored symbol, and RAW and TEXT
hold any value (R16). -/
theorem Buffer.symsValid_of_syms {b : Buffer} (hb : b.SymbolsValid) {d d' : Nat} {q : List Byte}
    (h : b.syms d = .ok (q, d')) : SymsValid b.enc q := by
  obtain ⟨hlen, -, hread⟩ := readSeq_ok h
  have hstored : b.enc = .hex ∨ b.enc = .b64 → SymsValid b.enc q := by
    intro he v hv
    obtain ⟨i, hi, rfl⟩ := List.mem_iff_getElem.1 hv
    obtain ⟨hvalid, hdef⟩ := hb i (hlen ▸ hi)
    obtain ⟨w, hw⟩ := Option.ne_none_iff_exists'.1 (hdef he)
    have hq : q[i]? = some w := hread i w (hlen ▸ hi) (by simpa using hw)
    obtain rfl : q[i] = w := by simpa [hi] using hq
    exact hvalid _ hw
  cases he : b.enc with
  | hex => exact he ▸ hstored (.inl he)
  | b64 => exact he ▸ hstored (.inr he)
  | raw => exact fun _ _ => rfl
  | text => exact fun _ _ => rfl

/-! ## The symbols a command writes are valid for the tag it writes (R18) -/

@[simp] theorem symsValid_nil (e : Enc) : SymsValid e [] := by simp [SymsValid]

@[simp] theorem symsValid_cons (e : Enc) (v : Byte) (q : List Byte) :
    SymsValid e (v :: q) ↔ validSym e v = true ∧ SymsValid e q := by simp [SymsValid]

@[simp] theorem symsValid_raw (q : List Byte) : SymsValid .raw q := fun _ _ => rfl

@[simp] theorem symsValid_text (q : List Byte) : SymsValid .text q := fun _ _ => rfl

theorem validSym_hex_iff (v : Byte) : validSym .hex v = true ↔ v.toNat ≤ 15 := by
  simp [validSym]

theorem validSym_b64_iff (v : Byte) : validSym .b64 v = true ↔ v.toNat ≤ 63 ∨ v = 255 := by
  simp [validSym]

theorem inRange_iff (c : Byte) (lo hi : Nat) : inRange c lo hi = true ↔ lo ≤ c.toNat ∧ c.toNat ≤ hi := by
  simp [inRange]

/-- R91: a character of an alphabet stands for a valid symbol. -/
theorem validSym_of_charToSym {e : Enc} {c v : Byte} (h : charToSym e c = some v) : validSym e v = true := by
  cases e with
  | hex =>
    rw [validSym_hex_iff]
    simp only [charToSym, inRange_iff] at h
    split_ifs at h <;> obtain rfl := Option.some.inj h <;> bv_omega
  | b64 =>
    simp only [charToSym, inRange_iff] at h
    split_ifs at h <;> obtain rfl := Option.some.inj h
    case pos | pos | pos => exact (validSym_b64_iff _).2 (.inl (by bv_omega))
    all_goals rfl
  | raw => rfl
  | text => rfl

/-- What PARSE's loop gives where it goes through (R92). -/
theorem parseSyms_some {e : Enc} {t q : List Byte} (h : parseSyms e t = some q) :
    q.length = t.length ∧ SymsValid e q := by
  induction t generalizing q with
  | nil =>
    obtain rfl : [] = q := Option.some.inj h
    simp
  | cons c t ih =>
    unfold parseSyms at h
    split at h
    · next v r hv hr =>
      obtain rfl := Option.some.inj h
      obtain ⟨hlen, hvalid⟩ := ih hr
      simp [hlen, hvalid, validSym_of_charToSym hv]
    · contradiction

/-- A symbol cut out of a group has as many bits as were cut. -/
theorem symAt_lt {w : Nat} (v : BitVec w) (lo : Nat) {n : Nat} (hn : n ≤ 8) : (symAt v lo n).toNat < 2 ^ n := by
  have hlt := (v.extractLsb' lo n).isLt
  rw [symAt, BitVec.toNat_setWidth_of_le hn]
  exact hlt

@[simp] theorem validSym_hex_symAt {w : Nat} (v : BitVec w) (lo : Nat) : validSym .hex (symAt v lo 4) = true :=
  (validSym_hex_iff _).2 (Nat.le_of_lt_succ (symAt_lt v lo (by decide)))

@[simp] theorem validSym_b64_symAt {w : Nat} (v : BitVec w) (lo : Nat) : validSym .b64 (symAt v lo 6) = true :=
  (validSym_b64_iff _).2 (.inl (Nat.le_of_lt_succ (symAt_lt v lo (by decide))))

@[simp] theorem validSym_b64_sentinel : validSym .b64 255#8 = true := rfl

/-! The groups of R94 to R96 that make HEX or B64 symbols. -/

theorem symsValid_groupsHexB64 (q : List Byte) : SymsValid .b64 (groupsHexB64 q) := by
  induction q using groupsHexB64.induct with
  | case1 a b c q ih => simp [groupsHexB64, ih]
  | case2 q hq => simp [groupsHexB64]

theorem symsValid_groupsB64Hex (q : List Byte) : SymsValid .hex (groupsB64Hex q) := by
  induction q using groupsB64Hex.induct with
  | case1 a b q ih => simp [groupsB64Hex, ih]
  | case2 q hq => simp [groupsB64Hex]

theorem symsValid_groupsRawHex (q : List Byte) : SymsValid .hex (groupsRawHex q) := by
  induction q with
  | nil => simp [groupsRawHex]
  | cons a q ih => simp [groupsRawHex, ih]

theorem symsValid_groupsRawB64 (q : List Byte) : SymsValid .b64 (groupsRawB64 q) := by
  induction q using groupsRawB64.induct with
  | case1 a b c q ih => simp [groupsRawB64, ih]
  | case2 a b => simp [groupsRawB64]
  | case3 a => simp [groupsRawB64]
  | case4 => simp [groupsRawB64]

theorem packB64Hex_ok {q r : List Byte} (h : packB64Hex q = .ok r) : r = groupsB64Hex q := by
  unfold packB64Hex at h
  split_ifs at h
  exact (Except.ok.inj h).symm

theorem packHexB64_ok {q r : List Byte} (h : packHexB64 q = .ok r) : r = groupsHexB64 q := by
  unfold packHexB64 at h
  split_ifs at h
  exact (Except.ok.inj h).symm

/-- A conversion that goes through gives symbols valid for its target (R93). -/
theorem symsValid_of_pack {f e : Enc} {q r : List Byte} (hq : SymsValid f q) (h : pack f e q = .ok r) :
    SymsValid e r := by
  cases e with
  | raw => exact symsValid_raw r
  | text => exact symsValid_text r
  | hex =>
    cases f with
    | hex => exact Except.ok.inj h ▸ hq
    | b64 => exact packB64Hex_ok h ▸ symsValid_groupsB64Hex q
    | raw => exact Except.ok.inj h ▸ symsValid_groupsRawHex q
    | text => contradiction
  | b64 =>
    cases f with
    | hex => exact packHexB64_ok h ▸ symsValid_groupsHexB64 q
    | b64 => exact Except.ok.inj h ▸ hq
    | raw => exact Except.ok.inj h ▸ symsValid_groupsRawB64 q
    | text => contradiction

/-- R108: the result has A's length. -/
@[simp] theorem length_xorCyclic (a b : List Byte) : (xorCyclic a b).length = a.length := by simp [xorCyclic]

/-- A symbol of B, or the 0 that stands past its end, is valid where every symbol of B is. -/
theorem validSym_getD {e : Enc} {q : List Byte} (hq : SymsValid e q) (i : Nat) :
    validSym e (q.getD i 0) = true := by
  rcases Nat.lt_or_ge i q.length with hi | hi
  · rw [List.getD_eq_getElem _ _ hi]
    exact hq _ (List.getElem_mem hi)
  · rw [List.getD_eq_default _ _ hi]
    cases e <;> rfl

/-- The XOR of two nibbles is a nibble (R108). -/
theorem symsValid_hex_xorCyclic {a b : List Byte} (ha : SymsValid .hex a) (hb : SymsValid .hex b) :
    SymsValid .hex (xorCyclic a b) := by
  intro v hv
  obtain ⟨i, hi, rfl⟩ := List.mem_mapIdx.1 hv
  have hx := (validSym_hex_iff _).1 (ha _ (List.getElem_mem hi))
  have hy := (validSym_hex_iff _).1 (validSym_getD hb (i % b.length))
  rw [validSym_hex_iff, BitVec.toNat_xor]
  exact Nat.le_of_lt_succ (Nat.xor_lt_two_pow (n := 4) (Nat.lt_succ_of_le hx) (Nat.lt_succ_of_le hy))

/-- R108, R109: the XOR of two sequences of one encoding is valid for it; on B64 the check of R109 says so. -/
theorem symsValid_xorCyclic {e : Enc} {a b : List Byte} (ha : SymsValid e a) (hb : SymsValid e b)
    (hcheck : ¬(e = .b64 ∧ (xorCyclic a b).all (validSym .b64) = false)) : SymsValid e (xorCyclic a b) := by
  cases e with
  | hex => exact symsValid_hex_xorCyclic ha hb
  | b64 => simpa [SymsValid] using hcheck
  | raw => exact symsValid_raw _
  | text => exact symsValid_text _

/-- R127: the plaintext is no longer than the ciphertext. -/
theorem length_decryptEcb_le (c : List Byte) (w : KeyTable) : (decryptEcb c w).length ≤ c.length := by
  have hlen : (decryptEcb c w).length = 16 * (c.length / 16) := by
    simp [decryptEcb, List.length_flatMap, Block.bytes, Nat.mul_comm]
  omega

/-! ## What one command can do -/

/-- A sequence that keeps a buffer within CAP and valid, if every buffer is so before (R17, R18). -/
structure Writable (s : State) (e : Enc) (q : List Byte) : Prop where
  fits : BuffersFit s → q.length ≤ Config.cap
  valid : SymbolsValid s → SymsValid e q

/-- What a command that completes from `s` can have done: nothing but complete, with some code, or with NONE after it wrote
the state its rule names. -/
inductive CommandEffect (i : Instr) (s : State) : State → Prop
  | completed (c : Code) (n : Nat) : CommandEffect i s ((s.withDraws n).complete c)
  | buffer (d : BufNum) (e : Enc) (q : List Byte) (n : Nat) (hd : destOf i = some d) (hq : Writable s e q) :
      CommandEffect i s (((s.withDraws n).bufWrite d e q).complete .none)
  | st (x : Block) (n : Nat) (hi : writesSt i) : CommandEffect i s (((s.withDraws n).setSt x).complete .none)
  | result (v : Word) (n : Nat) (hi : writesResult i) :
      CommandEffect i s (State.complete { s.withDraws n with result := v } .none)
  | keys (k : Block) (n : Nat) (hi : writesKeys i) :
      CommandEffect i s (((s.withDraws n).setKeys (keyExpansion k)).complete .none)
  | keysAndBuffer (k : Block) (d : BufNum) (q : List Byte) (n : Nat) (hi : writesKeys i) (hd : destOf i = some d)
      (hq : Writable s .raw q) :
      CommandEffect i s ((((s.withDraws n).setKeys (keyExpansion k)).bufWrite d .raw q).complete .none)

/-- R182: a command that completes with a code after drawing `n` values. -/
theorem effect_of_raise {i : Instr} {c : Code} {s t : State} {n : Nat} (h : raise c (s.withDraws n) = .next t) :
    CommandEffect i s t := by
  obtain rfl := Host.Outcome.next.inj h
  exact .completed c n

/-- An operand read fits where every buffer does. -/
theorem length_le_cap_of_syms {s : State} {b : BufNum} {d d' : Nat} {q : List Byte}
    (h : (s.buf b).syms d = .ok (q, d')) (hs : BuffersFit s) : q.length ≤ Config.cap := by
  obtain ⟨-, hlen, -⟩ := hs b
  exact Buffer.length_of_syms h ▸ hlen

/-- The bytes of a block are written as a RAW buffer of 16 symbols. -/
theorem writable_blockBytes (s : State) (x : Block) : Writable s .raw x.bytes where
  fits := fun _ => by have := Config.cap_ge; simp [Block.bytes]; omega
  valid := fun _ => symsValid_raw _

theorem execParse_effect {d a : BufNum} {e : Enc} {s t : State} (h : execParse d a e s = .next t) :
    CommandEffect (.parse d a e) s t := by
  unfold execParse at h
  split_ifs at h
  · exact effect_of_raise (n := s.draws) h
  · exact effect_of_raise (n := s.draws) h
  · obtain ⟨q, n, hq, h⟩ := withSyms_next h
    split at h
    · exact effect_of_raise h
    · next r hr =>
      obtain ⟨hlen, hvalid⟩ := parseSyms_some hr
      obtain rfl := Host.Outcome.next.inj h
      exact .buffer d e r n rfl ⟨fun hs => hlen ▸ length_le_cap_of_syms hq hs, fun _ => hvalid⟩

theorem execRender_effect {d a : BufNum} {s t : State} (h : execRender d a s = .next t) :
    CommandEffect (.render d a) s t := by
  unfold execRender at h
  split_ifs at h
  · exact effect_of_raise (n := s.draws) h
  · obtain ⟨q, n, hq, h⟩ := withSyms_next h
    obtain rfl := Host.Outcome.next.inj h
    exact .buffer d .text _ n rfl ⟨fun hs => by simpa using length_le_cap_of_syms hq hs, fun _ => symsValid_text _⟩

theorem execConvert_effect {d a : BufNum} {e : Enc} {s t : State} (h : execConvert d a e s = .next t) :
    CommandEffect (.convert d a e) s t := by
  unfold execConvert at h
  split_ifs at h
  · exact effect_of_raise (n := s.draws) h
  · exact effect_of_raise (n := s.draws) h
  · obtain ⟨q, n, hq, h⟩ := withSyms_next h
    split at h
    · exact effect_of_raise h
    · next r hr =>
      split_ifs at h with hcap
      · exact effect_of_raise h
      · obtain rfl := Host.Outcome.next.inj h
        exact .buffer d e r n rfl
          ⟨fun _ => Nat.le_of_not_gt hcap, fun hs => symsValid_of_pack (Buffer.symsValid_of_syms (hs a) hq) hr⟩

theorem execSlice_effect {d a : BufNum} {s t : State} (h : execSlice d a s = .next t) :
    CommandEffect (.slice d a) s t := by
  unfold execSlice at h
  split_ifs at h
  · exact effect_of_raise (n := s.draws) h
  · exact effect_of_raise (n := s.draws) h
  · obtain ⟨q, n, hq, h⟩ := withSyms_next h
    obtain rfl := Host.Outcome.next.inj h
    refine .buffer d _ _ n rfl ⟨fun hs => ?_, fun hs v hv => ?_⟩
    · have := length_le_cap_of_syms hq hs
      simp only [List.length_drop, List.length_take]
      omega
    · exact Buffer.symsValid_of_syms (hs a) hq v (List.mem_of_mem_take (List.mem_of_mem_drop hv))

theorem execXor_effect {d a b : BufNum} {s t : State} (h : execXor d a b s = .next t) :
    CommandEffect (.xor d a b) s t := by
  unfold execXor at h
  split_ifs at h with hsame
  · exact effect_of_raise (n := s.draws) h
  · obtain ⟨qa, n, hqa, h⟩ := withSyms_next h
    obtain ⟨qb, m, hqb, h⟩ := withSyms_next h
    split_ifs at h with hempty hlen hcheck
    · exact effect_of_raise h
    · exact effect_of_raise h
    · exact effect_of_raise h
    · obtain rfl := Host.Outcome.next.inj h
      have henc : (s.buf a).enc = (s.buf b).enc := by simp_all [sameStorage]
      refine .buffer d (s.buf a).enc _ m rfl ⟨fun hs => ?_, fun hs => ?_⟩
      · simpa using length_le_cap_of_syms hqa hs
      · have ha := Buffer.symsValid_of_syms (hs a) hqa
        have hb := Buffer.symsValid_of_syms (hs b) hqb
        exact symsValid_xorCyclic ha (henc ▸ hb) hcheck

theorem execHamm_effect {a b : BufNum} {s t : State} (h : execHamm a b s = .next t) :
    CommandEffect (.hamm a b) s t := by
  unfold execHamm at h
  split_ifs at h
  · exact effect_of_raise (n := s.draws) h
  · exact effect_of_raise (n := s.draws) h
  · obtain ⟨qa, n, -, h⟩ := withSyms_next h
    obtain ⟨qb, m, -, h⟩ := withSyms_next h
    obtain rfl := Host.Outcome.next.inj h
    exact .result _ m (.inr ⟨a, b, rfl⟩)

theorem execKeyexp_effect {a : BufNum} {s t : State} (h : execKeyexp a s = .next t) :
    CommandEffect (.keyexp a) s t := by
  unfold execKeyexp at h
  split_ifs at h
  · exact effect_of_raise (n := s.draws) h
  · exact effect_of_raise (n := s.draws) h
  · obtain ⟨q, n, -, h⟩ := withSyms_next h
    obtain rfl := Host.Outcome.next.inj h
    exact .keys (blockAt q 0) n (.inl ⟨a, rfl⟩)

theorem execDececb_effect {d a b : BufNum} {s t : State} (h : execDececb d a b s = .next t) :
    CommandEffect (.dececb d a b) s t := by
  unfold execDececb at h
  split_ifs at h
  · exact effect_of_raise (n := s.draws) h
  · exact effect_of_raise (n := s.draws) h
  · exact effect_of_raise (n := s.draws) h
  · obtain ⟨key, n, -, h⟩ := withSyms_next h
    obtain ⟨c, m, hc, h⟩ := withSyms_next h
    obtain rfl := Host.Outcome.next.inj h
    exact .keysAndBuffer (blockAt key 0) d _ m (.inr ⟨d, a, b, rfl⟩) rfl
      ⟨fun hs => Nat.le_trans (length_decryptEcb_le c _) (length_le_cap_of_syms hc hs), fun _ => symsValid_raw _⟩

theorem execStld_effect {a : BufNum} {s t : State} (h : execStld a s = .next t) : CommandEffect (.stld a) s t := by
  unfold execStld at h
  split_ifs at h
  · exact effect_of_raise (n := s.draws) h
  · exact effect_of_raise (n := s.draws) h
  · obtain ⟨q, n, -, h⟩ := withSyms_next h
    obtain rfl := Host.Outcome.next.inj h
    exact .st _ n (by simp [writesSt])

/-- The outcomes of `withRoundKey` (R130, R135): a refusal, or the command goes on with a round key. -/
theorem withRoundKey_effect {i : Instr} {s t : State} {k : Block → Result} (h : withRoundKey s k = .next t)
    (hk : ∀ x, k x = .next t → CommandEffect i s t) : CommandEffect i s t := by
  rcases withRoundKey_cases s k with ⟨-, he⟩ | ⟨-, -, he⟩ | ⟨_, -, he⟩
  · exact effect_of_raise (n := s.draws) (he ▸ h)
  · exact effect_of_raise (n := s.draws) (he ▸ h)
  · exact hk _ (he ▸ h)

theorem execDecblk_effect {s t : State} (h : execDecblk s = .next t) : CommandEffect .decblk s t := by
  unfold execDecblk at h
  split_ifs at h
  · exact effect_of_raise (n := s.draws) h
  · obtain rfl := Host.Outcome.next.inj h
    exact .st _ s.draws (by simp [writesSt])

theorem execTblrd_effect {s t : State} (h : execTblrd s = .next t) : CommandEffect .tblrd s t := by
  unfold execTblrd at h
  split at h
  · exact effect_of_raise (n := s.draws) h
  · obtain rfl := Host.Outcome.next.inj h
    exact .result _ s.draws (.inl rfl)

/-- A command that writes ST and reads no operand (R130 to R133). -/
theorem effect_of_setSt {i : Instr} {s t : State} {x : Block} (hi : writesSt i) (h : succeed (s.setSt x) = .next t) :
    CommandEffect i s t := by
  obtain rfl := Host.Outcome.next.inj h
  exact .st x s.draws hi

/-- A command that writes a block to buffer `d` and reads no operand (R129, R135). -/
theorem effect_of_blockWrite {i : Instr} {s t : State} {d : BufNum} {x : Block} (hd : destOf i = some d)
    (h : succeed (s.bufWrite d .raw x.bytes) = .next t) : CommandEffect i s t := by
  obtain rfl := Host.Outcome.next.inj h
  exact .buffer d .raw x.bytes s.draws hd (writable_blockBytes s x)

theorem execArk_effect {s t : State} (h : execArk s = .next t) : CommandEffect .ark s t :=
  withRoundKey_effect (k := fun k => succeed (s.setSt (addRoundKey s.st k))) h
    fun _ => effect_of_setSt (by simp [writesSt])

theorem execRkrd_effect {d : BufNum} {s t : State} (h : execRkrd d s = .next t) : CommandEffect (.rkrd d) s t :=
  withRoundKey_effect (k := fun k => succeed (s.bufWrite d .raw k.bytes)) h fun _ => effect_of_blockWrite rfl

/-- What any command that completes can have done. -/
theorem exec_effect {i : Instr} {s t : State} (h : exec i s = .next t) : CommandEffect i s t := by
  cases i with
  | nop => exact effect_of_raise (c := .none) (n := s.draws) h
  | parse d a e => exact execParse_effect h
  | render d a => exact execRender_effect h
  | convert d a e => exact execConvert_effect h
  | slice d a => exact execSlice_effect h
  | xor d a b => exact execXor_effect h
  | hamm a b => exact execHamm_effect h
  | keyexp a => exact execKeyexp_effect h
  | dececb d a b => exact execDececb_effect h
  | stld a => exact execStld_effect h
  | stst d => exact effect_of_blockWrite rfl h
  | ark => exact execArk_effect h
  | isr => exact effect_of_setSt (by simp [writesSt]) h
  | isb => exact effect_of_setSt (by simp [writesSt]) h
  | imc => exact effect_of_setSt (by simp [writesSt]) h
  | decblk => exact execDecblk_effect h
  | rkrd d => exact execRkrd_effect h
  | tblrd => exact execTblrd_effect h

/-- Settles O27: each kind of effect names the target it needs. -/
theorem commandsWriteOnlyTheirTargets : Obligations.CommandsWriteOnlyTheirTargets := by
  intro i s t h
  cases exec_effect h with
  | completed c n => exact ⟨fun _ => rfl, fun _ => rfl, fun _ => ⟨rfl, rfl⟩, fun _ _ => rfl⟩
  | buffer d e q n hd hq =>
    refine ⟨fun _ => rfl, fun _ => rfl, fun _ => ⟨rfl, rfl⟩, fun b hb => ?_⟩
    have hne : b ≠ d := fun he => hb (he ▸ hd)
    simp [hne]
  | st x n hi => exact ⟨fun _ => rfl, fun hn => absurd hi hn, fun _ => ⟨rfl, rfl⟩, fun _ _ => rfl⟩
  | result v n hi => exact ⟨fun hn => absurd hi hn, fun _ => rfl, fun _ => ⟨rfl, rfl⟩, fun _ _ => rfl⟩
  | keys k n hi => exact ⟨fun _ => rfl, fun _ => rfl, fun hn => absurd hi hn, fun _ _ => rfl⟩
  | keysAndBuffer k d q n hi hd hq =>
    refine ⟨fun _ => rfl, fun _ => rfl, fun hn => absurd hi hn, fun b hb => ?_⟩
    have hne : b ≠ d := fun he => hb (he ▸ hd)
    simp [hne]

/-! ## What one host access can do to the buffers and the keys -/

theorem Buffer.hostWritable_iff (b : Buffer) : b.hostWritable = true ↔ b.enc = .raw ∨ b.enc = .text := by
  simp [Buffer.hostWritable]

/-- What a host write through BDATA, BLEN or BENC that is not refused can do to the selected buffer (R54 to R56). -/
inductive PortWrite (b : Buffer) : Buffer → Prop
  | symbol (i : Nat) (v : Byte) (hi : i < Config.cap) (hb : b.enc = .raw ∨ b.enc = .text) :
      PortWrite b { b with sym := b.sym.write i v }
  | length (n : Nat) (hn : n ≤ Config.cap) (hb : b.enc = .raw ∨ b.enc = .text) : PortWrite b { b with len := n }
  | tag (e : Enc) (he : e = .raw ∨ e = .text) : PortWrite b { b with enc := e }

/-- What a host write can do to the buffers and the keys: reset the block, leave them, or write the selected buffer. -/
inductive HostWriteEffect (o : BitVec 8) (v : Word) (s t : State) : Prop
  | reset (ho : regAt o = .ctrl) (hv : v.getLsbD 1 = true) (ht : t = s.resetBlock)
  | kept (hb : BuffersKept s t) (hk : KeysKept s t)
  | port (x : Buffer) (hx : PortWrite (s.buf s.selected) x) (hb : ∀ b, t.buf b = (s.setBuf s.selected x).buf b)
      (hk : KeysKept s t)

theorem writeCtrl_effect {o : BitVec 8} (ho : regAt o = .ctrl) (v : Word) (s : State) :
    HostWriteEffect o v s (writeCtrl v s) := by
  unfold writeCtrl
  split_ifs with hv
  · exact .reset ho hv rfl
  · exact .kept (fun _ => rfl) ⟨rfl, rfl⟩

theorem writeBdata_effect (o : BitVec 8) (v : Word) (s : State) : HostWriteEffect o v s (writeBdata v s) := by
  simp only [writeBdata]
  split_ifs with hrefused
  · exact .kept (fun _ => rfl) ⟨rfl, rfl⟩
  · obtain ⟨hi, hb⟩ := not_or.1 hrefused
    have hb' := (Buffer.hostWritable_iff _).1 (Bool.of_not_eq_false hb)
    exact .port _ (.symbol s.bidx.toNat _ (Nat.lt_of_not_ge hi) hb') (fun _ => rfl) ⟨rfl, rfl⟩

theorem writeBlen_effect (o : BitVec 8) (v : Word) (s : State) : HostWriteEffect o v s (writeBlen v s) := by
  simp only [writeBlen]
  split_ifs with hrefused
  · exact .kept (fun _ => rfl) ⟨rfl, rfl⟩
  · obtain ⟨hn, hb⟩ := not_or.1 hrefused
    have hb' := (Buffer.hostWritable_iff _).1 (Bool.of_not_eq_false hb)
    exact .port _ (.length v.toNat (Nat.le_of_not_gt hn) hb') (fun _ => rfl) ⟨rfl, rfl⟩

theorem writeBenc_effect (o : BitVec 8) (v : Word) (s : State) : HostWriteEffect o v s (writeBenc v s) := by
  unfold writeBenc
  split
  · exact .port _ (.tag .raw (.inl rfl)) (fun _ => rfl) ⟨rfl, rfl⟩
  · exact .port _ (.tag .text (.inr rfl)) (fun _ => rfl) ⟨rfl, rfl⟩
  · exact .kept (fun _ => rfl) ⟨rfl, rfl⟩
  · exact .kept (fun _ => rfl) ⟨rfl, rfl⟩

theorem writeIdle_effect (o : BitVec 8) (r : Reg) (v : Word) (s : State) :
    HostWriteEffect o v s (writeIdle r v s) := by
  cases r with
  | bdata => exact writeBdata_effect o v s
  | blen => exact writeBlen_effect o v s
  | benc => exact writeBenc_effect o v s
  | _ => exact .kept (fun _ => rfl) ⟨rfl, rfl⟩

theorem hostWrite_effect (o : BitVec 8) (v : Word) (s : State) : HostWriteEffect o v s (hostWrite o v s) := by
  unfold hostWrite
  split
  · next ho => exact writeCtrl_effect ho v s
  · exact .kept (fun _ => rfl) ⟨rfl, rfl⟩
  · exact .kept (fun _ => rfl) ⟨rfl, rfl⟩
  · split_ifs
    · exact .kept (fun _ => rfl) ⟨rfl, rfl⟩
    · exact writeIdle_effect o _ v s

/-- R53: a read of BDATA moves BIDX, PERR and the model's fields alone. -/
theorem readBdata_keeps {s t : State} (h : readBdata s = .next t) : BuffersKept s t ∧ KeysKept s t := by
  unfold readBdata at h
  split_ifs at h
  · obtain rfl := Host.Outcome.next.inj h
    exact ⟨fun _ => rfl, rfl, rfl⟩
  · split at h
    · contradiction
    · obtain rfl := Host.Outcome.next.inj h
      exact ⟨fun _ => rfl, rfl, rfl⟩

/-- The three kinds of answer to a host read. -/
theorem hostRead_cases {o : BitVec 8} {s t : State} (h : hostRead o s = .next t) :
    t = s.overrunRead ∨ (∃ v, t = s.answer v) ∨ readBdata s = .next t := by
  unfold hostRead at h
  split at h
  case h_7 | h_11 | h_12 =>
    split_ifs at h
    · exact .inl (Host.Outcome.next.inj h).symm
    · exact .inr (.inl ⟨_, (Host.Outcome.next.inj h).symm⟩)
  case h_10 =>
    split_ifs at h
    · exact .inl (Host.Outcome.next.inj h).symm
    · exact .inr (.inr h)
  all_goals exact .inr (.inl ⟨_, (Host.Outcome.next.inj h).symm⟩)

/-- No host read changes a buffer or the keys. -/
theorem hostRead_keeps {o : BitVec 8} {s t : State} (h : hostRead o s = .next t) :
    BuffersKept s t ∧ KeysKept s t := by
  rcases hostRead_cases h with rfl | ⟨v, rfl⟩ | h
  · exact ⟨fun _ => rfl, rfl, rfl⟩
  · exact ⟨fun _ => rfl, rfl, rfl⟩
  · exact readBdata_keeps h

/-! ## What one step can do to the buffers and the keys -/

/-- The ENGINE's turn (R160, R194): nothing, a completion that writes nothing, or the command CMD holds. -/
theorem engineTurn_cases {s t : State} (h : engineTurn s = .next t) :
    (s.busy = false ∧ t = s) ∨ (s.busy = true ∧ t = s.complete .illegalCommand) ∨
      ∃ i, s.busy = true ∧ decode s.cmd = .ok i ∧ CommandEffect i s t := by
  unfold engineTurn at h
  split_ifs at h with hb
  · unfold engineStep at h
    split at h
    · exact .inr (.inl ⟨hb, (Host.Outcome.next.inj h).symm⟩)
    · next i hi => exact .inr (.inr ⟨i, hb, hi, exec_effect h⟩)
  · exact .inl ⟨Bool.eq_false_of_not_eq_true hb, (Host.Outcome.next.inj h).symm⟩

/-- What one step from `s` can make of a buffer `b`. -/
inductive BufferStep (s : State) (b : Buffer) : Buffer → Prop
  | kept : BufferStep s b b
  | reset : BufferStep s b Buffer.empty
  | port (x : Buffer) (hx : PortWrite b x) : BufferStep s b x
  | command (e : Enc) (q : List Byte) (hq : Writable s e q) :
      BufferStep s b { enc := e, len := q.length, sym := b.sym.writeSeq 0 q }

/-- What one step from `s` can make of RK and KSV. -/
inductive KeyStep (s t : State) : Prop
  | kept (hk : KeysKept s t)
  | reset (hs : s.resetNext ∨ s.softResetNext) (ht : t.ksv = false)
  | expanded (i : Instr) (k : Block) (hb : s.busy = true) (hs : s.engineNext) (hi : decode s.cmd = .ok i)
      (hw : writesKeys i) (herr : t.errcode = 0) (hksv : t.ksv = true) (hrk : t.rk = keyExpansion k)

/-- A command that writes one buffer changes that buffer alone. -/
theorem bufferStep_bufWrite {s : State} {d : BufNum} {e : Enc} {q : List Byte} (hq : Writable s e q) (b : BufNum) :
    BufferStep s (s.buf b) ((s.bufWrite d e q).buf b) := by
  by_cases hb : b = d
  · subst hb
    rw [State.buf_bufWrite_same]
    exact .command e q hq
  · rw [State.buf_bufWrite_other _ _ _ _ _ hb]
    exact .kept

theorem bufferStep_of_effect {i : Instr} {s t : State} (h : CommandEffect i s t) (b : BufNum) :
    BufferStep s (s.buf b) (t.buf b) := by
  cases h with
  | completed c n => exact .kept
  | buffer d e q n hd hq => exact bufferStep_bufWrite hq b
  | st x n hi => exact .kept
  | result v n hi => exact .kept
  | keys k n hi => exact .kept
  | keysAndBuffer k d q n hi hd hq => exact bufferStep_bufWrite hq b

theorem keyStep_of_effect {i : Instr} {s t : State} (hs : s.engineNext) (hb : s.busy = true)
    (hi : decode s.cmd = .ok i) (h : CommandEffect i s.advance t) : KeyStep s t := by
  cases h with
  | completed c n => exact .kept ⟨rfl, rfl⟩
  | buffer d e q n hd hq => exact .kept ⟨rfl, rfl⟩
  | st x n hw => exact .kept ⟨rfl, rfl⟩
  | result v n hw => exact .kept ⟨rfl, rfl⟩
  | keys k n hw => exact .expanded i k hb hs hi hw rfl rfl rfl
  | keysAndBuffer k d q n hw hd hq => exact .expanded i k hb hs hi hw rfl rfl rfl

/-- What a host write does to one buffer. -/
theorem bufferStep_hostWrite (o : BitVec 8) (v : Word) (s : State) (b : BufNum) :
    BufferStep s (s.buf b) ((hostWrite o v s).buf b) := by
  cases hostWrite_effect o v s with
  | reset ho hv ht =>
    rw [ht, State.resetBlock_buf]
    exact .reset
  | kept hb hk =>
    rw [hb b]
    exact .kept
  | port x hx hb hk =>
    rw [hb b, State.buf_setBuf]
    split_ifs with he
    · exact .port x (he ▸ hx)
    · exact .kept

/-- Taking an event off the schedule touches no buffer. -/
theorem BufferStep.of_advance {s : State} {b x : Buffer} (h : BufferStep s.advance b x) : BufferStep s b x := by
  cases h with
  | kept => exact .kept
  | reset => exact .reset
  | port x hx => exact .port x hx
  | command e q hq => exact .command e q ⟨hq.fits, hq.valid⟩

/-- What one step does to one buffer. -/
theorem step_bufferStep {s t : State} (h : step s = .next t) (b : BufNum) : BufferStep s (s.buf b) (t.buf b) := by
  apply BufferStep.of_advance
  rcases s.turn_cases with hs | ⟨o, hs⟩ | ⟨o, v, hs⟩ | hs
  · rw [step_of_engineNext hs] at h
    rcases engineTurn_cases h with ⟨-, rfl⟩ | ⟨-, rfl⟩ | ⟨i, -, -, he⟩
    · exact .kept
    · exact .kept
    · exact bufferStep_of_effect he b
  · rw [step_of_readNext hs] at h
    obtain ⟨hb, -⟩ := hostRead_keeps h
    rw [hb b]
    exact .kept
  · rw [step_of_writeNext hs] at h
    obtain rfl := Host.Outcome.next.inj h
    exact bufferStep_hostWrite o v s.advance b
  · rw [step_of_resetNext hs] at h
    obtain rfl := Host.Outcome.next.inj h
    rw [State.resetBlock_buf]
    exact .reset

/-- What one step does to RK and KSV. -/
theorem step_keyStep {s t : State} (h : step s = .next t) : KeyStep s t := by
  rcases s.turn_cases with hs | ⟨o, hs⟩ | ⟨o, v, hs⟩ | hs
  · rw [step_of_engineNext hs] at h
    rcases engineTurn_cases h with ⟨-, rfl⟩ | ⟨-, rfl⟩ | ⟨i, hb, hi, he⟩
    · exact .kept ⟨rfl, rfl⟩
    · exact .kept ⟨rfl, rfl⟩
    · exact keyStep_of_effect hs hb hi he
  · rw [step_of_readNext hs] at h
    obtain ⟨-, hrk, hksv⟩ := hostRead_keeps h
    exact .kept ⟨hrk, hksv⟩
  · rw [step_of_writeNext hs] at h
    obtain rfl := Host.Outcome.next.inj h
    cases hostWrite_effect o v s.advance with
    | reset ho hv ht => exact .reset (.inr ⟨o, v, hs, index_of_regAt_ctrl ho, hv⟩) (by rw [ht]; rfl)
    | kept hb hk => exact .kept ⟨hk.rk, hk.ksv⟩
    | port x hx hb hk => exact .kept ⟨hk.rk, hk.ksv⟩
  · rw [step_of_resetNext hs] at h
    obtain rfl := Host.Outcome.next.inj h
    exact .reset (.inl hs) rfl

/-! ## The invariants -/

theorem Buffer.fits_empty : Buffer.empty.Fits := ⟨List.Pairwise.nil, Nat.zero_le _, by simp [Buffer.empty]⟩

theorem Buffer.symbolsValid_empty : Buffer.empty.SymbolsValid := by simp [Buffer.SymbolsValid, Buffer.empty]

/-- RAW and TEXT hold any symbol, and an undefined one (R16, log entry 14). -/
theorem Buffer.symbolsValid_of_rawOrText {b : Buffer} (h : b.enc = .raw ∨ b.enc = .text) : b.SymbolsValid := by
  intro i _
  rcases h with h | h <;> simp [h, validSym]

theorem PortWrite.fits {b x : Buffer} (h : PortWrite b x) (hb : b.Fits) : x.Fits := by
  obtain ⟨hwf, hlen, hbelow⟩ := hb
  cases h with
  | symbol i v hi _ => exact ⟨Memory.wf_write hwf i v, hlen, Memory.write_below hbelow hi v⟩
  | length n hn _ => exact ⟨hwf, hn, hbelow⟩
  | tag e _ => exact ⟨hwf, hlen, hbelow⟩

/-- The HOST can write RAW and TEXT buffers alone (R54 to R56), and those hold any symbols. -/
theorem PortWrite.symbolsValid {b x : Buffer} (h : PortWrite b x) : x.SymbolsValid := by
  cases h with
  | symbol i v _ hb => exact Buffer.symbolsValid_of_rawOrText hb
  | length n _ hb => exact Buffer.symbolsValid_of_rawOrText hb
  | tag e he => exact Buffer.symbolsValid_of_rawOrText he

/-- `BufWrite` of at most CAP symbols keeps a buffer within CAP (R8, R17). -/
theorem Buffer.fits_writeSeq {b : Buffer} (hb : b.Fits) (e : Enc) {q : List Byte} (hq : q.length ≤ Config.cap) :
    Buffer.Fits { enc := e, len := q.length, sym := b.sym.writeSeq 0 q } := by
  obtain ⟨hwf, -, hbelow⟩ := hb
  exact ⟨Memory.wf_writeSeq q hwf 0, hq, Memory.writeSeq_below q hbelow (by omega)⟩

/-- `BufWrite` defines every slot below the new length (R8). -/
theorem Buffer.symbolsValid_writeSeq (m : Memory) {e : Enc} {q : List Byte} (hq : SymsValid e q) :
    Buffer.SymbolsValid { enc := e, len := q.length, sym := m.writeSeq 0 q } := by
  intro i hi
  have hi' : i < q.length := hi
  have hread : (m.writeSeq 0 q).read i = some q[i] := by simp [Memory.read_writeSeq, hi']
  refine ⟨fun v hv => ?_, fun _ hn => ?_⟩
  · obtain rfl : q[i] = v := Option.some.inj (hread.symm.trans hv)
    exact hq _ (List.getElem_mem hi')
  · exact Option.some_ne_none _ (hread.symm.trans hn)

theorem BufferStep.fits {s : State} {b x : Buffer} (h : BufferStep s b x) (hs : BuffersFit s) (hb : b.Fits) :
    x.Fits := by
  cases h with
  | kept => exact hb
  | reset => exact Buffer.fits_empty
  | port _ hx => exact hx.fits hb
  | command e q hq => exact Buffer.fits_writeSeq hb e (hq.fits hs)

theorem BufferStep.symbolsValid {s : State} {b x : Buffer} (h : BufferStep s b x) (hs : SymbolsValid s)
    (hb : b.SymbolsValid) : x.SymbolsValid := by
  cases h with
  | kept => exact hb
  | reset => exact Buffer.symbolsValid_empty
  | port _ hx => exact hx.symbolsValid
  | command e q hq => exact Buffer.symbolsValid_writeSeq _ (hq.valid hs)

/-- Settles O29, by what one step can make of a buffer. -/
theorem stepKeepsBuffersFit : Obligations.StepKeepsBuffersFit := fun _ _ hs h b =>
  (step_bufferStep h b).fits hs (hs b)

/-- Settles O30, by what one step can make of a buffer. -/
theorem stepKeepsSymbolsValid : Obligations.StepKeepsSymbolsValid := fun _ _ hs h b =>
  (step_bufferStep h b).symbolsValid hs (hs b)

/-- Settles O31, by what one step can make of RK and KSV. -/
theorem stepKeepsKeysValid : Obligations.StepKeepsKeysValid := by
  intro s t hs h
  cases step_keyStep h with
  | kept hk =>
    intro ht
    rw [hk.rk]
    exact hs (hk.ksv ▸ ht)
  | reset _ ht => exact fun hksv => absurd (ht.symm.trans hksv) Bool.false_ne_true
  | expanded i k _ _ _ _ _ _ hrk => exact fun _ => ⟨k, hrk⟩

/-- Settles O28, by what one step can make of RK and KSV. -/
theorem ksvChangesOnlyByKeysAndReset : Obligations.KsvChangesOnlyByKeysAndReset := by
  intro s t h
  cases step_keyStep h with
  | kept hk => exact ⟨fun h1 h0 => by simp [hk.ksv, h1] at h0, fun h0 h1 => by simp [hk.ksv, h0] at h1⟩
  | reset hs ht => exact ⟨fun _ _ => hs, fun _ h1 => by simp [ht] at h1⟩
  | expanded i k hb hs hi hw herr hksv _ =>
    exact ⟨fun _ h0 => by simp [hksv] at h0, fun _ _ => ⟨hb, hs, herr, i, hi, hw⟩⟩

/-! ## Commands read no unobservable state (R17, R22, U4, U14) -/

/-- A read depends on the slots it reads alone. -/
theorem readSeq_congr {m m' : Memory} {n i : Nat} (d : Nat)
    (h : ∀ k, i ≤ k → k < i + n → m.read k = m'.read k) : readSeq m i n d = readSeq m' i n d := by
  induction n generalizing i d with
  | zero => rfl
  | succ n ih =>
    have hslot : readSlot m i d = readSlot m' i d := by simp only [readSlot, h i (by omega) (by omega)]
    have hrest : ∀ d, readSeq m (i + 1) n d = readSeq m' (i + 1) n d := fun d =>
      ih d fun k hik hk => h k (by omega) (by omega)
    simp only [readSeq, hslot, hrest]

section SameValues

variable {s t : State}

theorem SameValues.syms (h : SameValues s t) (b : BufNum) : (s.buf b).syms s.draws = (t.buf b).syms t.draws := by
  rw [Buffer.syms, Buffer.syms, ← h.len b, ← h.draws]
  exact readSeq_congr _ fun k _ hk => h.symbols b k (by omega)

theorem SameValues.withDraws (h : SameValues s t) (d : Nat) : SameValues (s.withDraws d) (t.withDraws d) :=
  { h with draws := rfl }

theorem SameValues.complete (h : SameValues s t) (c : Code) : SameValues (s.complete c) (t.complete c) :=
  { h with busy := rfl, done := rfl, errcode := rfl }

theorem SameValues.setSt (h : SameValues s t) (x : Block) : SameValues (s.setSt x) (t.setSt x) :=
  { h with st := rfl }

theorem SameValues.setKeys (h : SameValues s t) (w : KeyTable) : SameValues (s.setKeys w) (t.setKeys w) :=
  { h with ksv := rfl, rk := fun _ => rfl }

theorem SameValues.setResult (h : SameValues s t) (v : Word) :
    SameValues { s with result := v } { t with result := v } :=
  { h with result := rfl }

/-- `BufWrite` (R8) writes every slot below the new length, so the slots that may differ stay above it. -/
theorem SameValues.bufWrite (h : SameValues s t) (d : BufNum) (e : Enc) (q : List Byte) :
    SameValues (s.bufWrite d e q) (t.bufWrite d e q) :=
  { h with
    enc := fun b => by
      by_cases hb : b = d
      · simp [hb]
      · simpa [hb] using h.enc b
    len := fun b => by
      by_cases hb : b = d
      · simp [hb]
      · simpa [hb] using h.len b
    symbols := fun b i hi => by
      rw [State.slot_bufWrite, State.slot_bufWrite]
      by_cases hb : b = d
      · subst hb
        have hq : i < q.length := by simpa using hi
        simp [hq]
      · simpa [hb] using h.symbols b i (by simpa [hb] using hi) }

theorem SameAnswer.raise (h : SameValues s t) (c : Code) :
    SameAnswer (Sys2Proof.Machine.raise c s) (Sys2Proof.Machine.raise c t) := .next _ _ (h.complete c)

theorem SameAnswer.succeed (h : SameValues s t) :
    SameAnswer (Sys2Proof.Machine.succeed s) (Sys2Proof.Machine.succeed t) := .next _ _ (h.complete .none)

/-- Both runs read one sequence, or fault at one slot. -/
theorem SameAnswer.withSyms (h : SameValues s t) (mn : String) (b : BufNum) {k k' : List Byte → State → Result}
    (hk : ∀ q s' t', SameValues s' t' → SameAnswer (k q s') (k' q t')) :
    SameAnswer (Sys2Proof.Machine.withSyms mn b s k) (Sys2Proof.Machine.withSyms mn b t k') := by
  unfold Sys2Proof.Machine.withSyms
  rw [h.syms b]
  split
  · exact .fault _
  · exact hk _ _ _ (h.withDraws _)

theorem SameValues.arg0Nat (h : SameValues s t) : s.arg0Nat = t.arg0Nat := congrArg BitVec.toNat h.arg0

/-- Both runs are refused alike, or go on with one round key: RK is read where KSV = 1 alone (R181). -/
theorem SameAnswer.withRoundKey (h : SameValues s t) {k k' : Block → Result} (hk : ∀ x, SameAnswer (k x) (k' x)) :
    SameAnswer (Sys2Proof.Machine.withRoundKey s k) (Sys2Proof.Machine.withRoundKey t k') := by
  unfold Sys2Proof.Machine.withRoundKey
  simp only [← h.ksv, ← h.arg0Nat]
  split_ifs with hksv hn
  · exact .raise h _
  · rw [← h.rk (Bool.of_not_eq_false hksv)]
    exact hk _
  · exact .raise h _

/-- Two runs that meet one check: both are refused with its code, or both go on. -/
theorem SameAnswer.check (h : SameValues s t) {p p' : Prop} [Decidable p] [Decidable p'] (hp : p ↔ p') (c : Code)
    {r r' : Result} (hr : SameAnswer r r') :
    SameAnswer (if p then Sys2Proof.Machine.raise c s else r) (if p' then Sys2Proof.Machine.raise c t else r') := by
  simp only [← hp]
  split_ifs
  · exact .raise h c
  · exact hr

theorem SameValues.isText (h : SameValues s t) (b : BufNum) : (s.buf b).isText = (t.buf b).isText := by
  rw [Buffer.isText, Buffer.isText, h.enc]

theorem SameValues.isStorage (h : SameValues s t) (b : BufNum) : (s.buf b).isStorage = (t.buf b).isStorage := by
  rw [Buffer.isStorage, Buffer.isStorage, h.enc]

theorem SameValues.sameStorage (h : SameValues s t) (a b : BufNum) : sameStorage s a b = sameStorage t a b := by
  rw [Sys2Proof.Machine.sameStorage, Sys2Proof.Machine.sameStorage, h.isStorage, h.isStorage, h.enc, h.enc]

theorem SameValues.arg1Nat (h : SameValues s t) : s.arg1Nat = t.arg1Nat := congrArg BitVec.toNat h.arg1

theorem SameValues.execParse (h : SameValues s t) (d a : BufNum) (e : Enc) :
    SameAnswer (execParse d a e s) (execParse d a e t) := by
  refine .check h .rfl _ <| .check h (by rw [h.isText]) _ <| .withSyms h _ _ fun q s t h => ?_
  cases parseSyms e q with
  | none => exact .raise h _
  | some r => exact .succeed (h.bufWrite d e r)

theorem SameValues.execRender (h : SameValues s t) (d a : BufNum) :
    SameAnswer (execRender d a s) (execRender d a t) := by
  refine .check h (by rw [h.isStorage]) _ <| .withSyms h _ _ fun q s t h => ?_
  rw [h.enc]
  exact .succeed (h.bufWrite d .text _)

theorem SameValues.execConvert (h : SameValues s t) (d a : BufNum) (e : Enc) :
    SameAnswer (execConvert d a e s) (execConvert d a e t) := by
  refine .check h .rfl _ <| .check h (by rw [h.isStorage]) _ <| .withSyms h _ _ fun q s t h => ?_
  rw [h.enc]
  cases pack (t.buf a).enc e q with
  | error c => exact .raise h c
  | ok r => exact .check h .rfl _ <| .succeed (h.bufWrite d e r)

theorem SameValues.execSlice (h : SameValues s t) (d a : BufNum) :
    SameAnswer (execSlice d a s) (execSlice d a t) := by
  refine .check h (by rw [h.isStorage]) _ <| .check h (by rw [h.arg0Nat, h.arg1Nat, h.len]) _ <|
    .withSyms h _ _ fun q s t h => ?_
  rw [h.enc, h.arg0Nat, h.arg1Nat]
  exact .succeed (h.bufWrite d _ _)

theorem SameValues.execXor (h : SameValues s t) (d a b : BufNum) :
    SameAnswer (execXor d a b s) (execXor d a b t) := by
  refine .check h (by rw [h.sameStorage]) _ <| .withSyms h _ _ fun qa s t h => .withSyms h _ _ fun qb s t h => ?_
  rw [h.enc]
  exact .check h .rfl _ <| .check h .rfl _ <| .check h .rfl _ <| .succeed (h.bufWrite d _ _)

theorem SameValues.execHamm (h : SameValues s t) (a b : BufNum) :
    SameAnswer (execHamm a b s) (execHamm a b t) := by
  refine .check h (by rw [h.sameStorage]) _ <| .check h (by rw [h.len, h.len]) _ <|
    .withSyms h _ _ fun qa s t h => .withSyms h _ _ fun qb s t h => ?_
  rw [h.enc]
  exact .succeed (h.setResult _)

theorem SameValues.execKeyexp (h : SameValues s t) (a : BufNum) :
    SameAnswer (execKeyexp a s) (execKeyexp a t) :=
  .check h (by rw [h.enc]) _ <| .check h (by rw [h.len]) _ <| .withSyms h _ _ fun _ _ _ h => .succeed (h.setKeys _)

theorem SameValues.execDececb (h : SameValues s t) (d a b : BufNum) :
    SameAnswer (execDececb d a b s) (execDececb d a b t) :=
  .check h (by rw [h.enc, h.enc]) _ <| .check h (by rw [h.len]) _ <| .check h (by rw [h.len]) _ <|
    .withSyms h _ _ fun _ _ _ h => .withSyms h _ _ fun _ _ _ h => .succeed ((h.setKeys _).bufWrite d .raw _)

theorem SameValues.execStld (h : SameValues s t) (a : BufNum) : SameAnswer (execStld a s) (execStld a t) :=
  .check h (by rw [h.enc]) _ <| .check h (by rw [h.len]) _ <| .withSyms h _ _ fun _ _ _ h => .succeed (h.setSt _)

theorem SameValues.execStst (h : SameValues s t) (d : BufNum) : SameAnswer (execStst d s) (execStst d t) := by
  rw [Sys2Proof.Machine.execStst, Sys2Proof.Machine.execStst, h.st]
  exact .succeed (h.bufWrite d .raw _)

/-- RK is read where KSV = 1 alone (R181). -/
theorem SameValues.execDecblk (h : SameValues s t) : SameAnswer (execDecblk s) (execDecblk t) := by
  unfold Sys2Proof.Machine.execDecblk
  rw [h.st, ← h.ksv]
  split_ifs with hksv
  · exact .raise h _
  · rw [h.rk (Bool.of_not_eq_false hksv)]
    exact .succeed (h.setSt _)

theorem SameValues.execTblrd (h : SameValues s t) : SameAnswer (execTblrd s) (execTblrd t) := by
  unfold Sys2Proof.Machine.execTblrd
  rw [h.arg0Nat, h.arg1Nat]
  cases tableEntry t.arg1Nat t.arg0Nat with
  | none => exact .raise h _
  | some v => exact .succeed (h.setResult _)

/-- R130 to R133: a command that replaces ST by a function of ST alone. -/
theorem SameValues.mapSt (h : SameValues s t) (f : Block → Block) :
    SameAnswer (succeed (s.setSt (f s.st))) (succeed (t.setSt (f t.st))) := by
  rw [h.st]
  exact .succeed (h.setSt _)

/-- From states with the same values, every command gives the same answer. -/
theorem SameValues.exec (h : SameValues s t) (i : Instr) : SameAnswer (exec i s) (exec i t) := by
  cases i with
  | nop => exact .succeed h
  | parse d a e => exact h.execParse d a e
  | render d a => exact h.execRender d a
  | convert d a e => exact h.execConvert d a e
  | slice d a => exact h.execSlice d a
  | xor d a b => exact h.execXor d a b
  | hamm a b => exact h.execHamm a b
  | keyexp a => exact h.execKeyexp a
  | dececb d a b => exact h.execDececb d a b
  | stld a => exact h.execStld a
  | stst d => exact h.execStst d
  | ark => exact .withRoundKey h fun k => h.mapSt (addRoundKey · k)
  | isr => exact h.mapSt invShiftRows
  | isb => exact h.mapSt invSubBytes
  | imc => exact h.mapSt invMixColumns
  | decblk => exact h.execDecblk
  | rkrd d => exact .withRoundKey h fun k => .succeed (h.bufWrite d .raw k.bytes)
  | tblrd => exact h.execTblrd

/-! ## The observation (R169) -/

theorem Buffer.value_eq_iff (b c : Buffer) :
    b.value = c.value ↔ b.enc = c.enc ∧ b.len = c.len ∧ ∀ i, i < b.len → b.sym.read i = c.sym.read i := by
  simp only [Buffer.value, BufferValue.mk.injEq]
  refine and_congr_right fun _ => and_congr_right fun hlen => ?_
  rw [← hlen, List.map_inj_left]
  simp

theorem State.observe_buffers_eq_iff (s t : State) :
    s.observe.buffers = t.observe.buffers ↔ ∀ b, (s.buf b).value = (t.buf b).value := by
  refine ⟨fun h b => by rw [← State.observe_buffers, ← State.observe_buffers, h], fun h => ?_⟩
  apply Vector.ext
  intro i hi
  have hget := h ⟨i, hi⟩
  rw [← State.observe_buffers, ← State.observe_buffers] at hget
  exact hget

/-- RK is observed where KSV = 1 alone. -/
theorem State.observe_rk_eq_iff {s t : State} (h : s.ksv = t.ksv) :
    s.observe.rk = t.observe.rk ↔ (s.ksv = true → s.rk = t.rk) := by
  cases hk : s.ksv <;> simp [hk, ← h]

/-- Two observations are equal where their components are. -/
theorem Observation.eq_iff (o p : Observation) :
    o = p ↔ o.buffers = p.buffers ∧ o.st = p.st ∧ o.rk = p.rk ∧ o.ksv = p.ksv ∧ o.result = p.result
      ∧ o.cmd = p.cmd ∧ o.status = p.status := by
  cases o; cases p; simp

/-- Two states have one observation exactly where the components of R169's tuple agree. -/
theorem observe_eq_iff (s t : State) : s.observe = t.observe ↔ SameObservation s t := by
  rw [Observation.eq_iff, State.observe_buffers_eq_iff]
  simp only [Buffer.value_eq_iff]
  constructor
  · rintro ⟨hbuf, hst, hrk, hksv, hresult, hcmd, hstatus⟩
    exact {
      enc := fun b => (hbuf b).1
      len := fun b => (hbuf b).2.1
      symbols := fun b => (hbuf b).2.2
      st := hst, ksv := hksv, result := hresult, cmd := hcmd, status := hstatus
      rk := (State.observe_rk_eq_iff hksv).1 hrk }
  · intro h
    exact ⟨fun b => ⟨h.enc b, h.len b, h.symbols b⟩, h.st, (State.observe_rk_eq_iff h.ksv).2 h.rk, h.ksv, h.result,
      h.cmd, h.status⟩

theorem SameValues.statusWord (h : SameValues s t) : s.statusWord = t.statusWord := by
  simp only [State.statusWord, State.err, h.errcode, h.ksv, h.perr, h.ovr, h.done, h.busy]

/-- The states U4 and U14 speak of are not told apart by R169. -/
theorem SameValues.sameObservation (h : SameValues s t) : SameObservation s t :=
  { h with status := h.statusWord }

end SameValues

/-- Settles O60, by a command at a time for the answers and a component at a time for the observation. -/
theorem commandsIgnoreUnobservableState : Obligations.CommandsIgnoreUnobservableState :=
  ⟨fun i _ _ h => h.exec i, fun s t h => (observe_eq_iff s t).2 h.sameObservation, observe_eq_iff⟩

/-! ## Reset (R46, R200 to R202) -/

/-- A soft reset does what a hardware reset does (R201). -/
theorem step_of_softResetNext {s : State} (h : s.softResetNext) : step s = .next s.advance.resetBlock := by
  obtain ⟨o, v, hs, ho, hv⟩ := h
  simp [step_of_writeNext hs, hostWrite, regAt_ctrl ho, writeCtrl, hv]

theorem State.reset_hasResetValues : HasResetValues State.reset where
  ie := rfl
  busy := rfl
  done := rfl
  ovr := rfl
  perr := rfl
  errcode := rfl
  ksv := rfl
  cmd := rfl
  arg0 := rfl
  arg1 := rfl
  result := rfl
  bsel := rfl
  bidx := rfl
  enc := fun b => by rw [State.reset_buf]; rfl
  len := fun b => by rw [State.reset_buf]; rfl
  undefinedSlots := fun b i => by rw [State.slot, State.reset_buf]; rfl
  st := fun i => by simp [State.reset, Block.zero, Vector.get_eq_getElem]
  irq := rfl

theorem State.resetBlock_hasResetValues (s : State) : HasResetValues s.resetBlock :=
  { State.reset_hasResetValues with }

/-- Settles O14. -/
theorem resetStateHasResetValues : Obligations.ResetStateHasResetValues := State.reset_hasResetValues

/-- Settles O13: both resets lead to `State.resetBlock`. -/
theorem resetsGiveResetValues : Obligations.ResetsGiveResetValues := by
  refine ⟨fun s h => ?_, fun s s' h h' hsched hrdata hdraws => ?_⟩
  · exact ⟨_, h.elim step_of_resetNext step_of_softResetNext, State.resetBlock_hasResetValues _, rfl, rfl, rfl⟩
  · refine ⟨_, _, step_of_resetNext h, step_of_softResetNext h', ?_⟩
    simp [State.resetBlock, hsched, hrdata, hdraws]

/-- Settles O33: after reset every buffer is empty, KSV and ERRCODE are 0. -/
theorem resetSatisfiesInvariants : Obligations.ResetSatisfiesInvariants := by
  refine ⟨(buffersFit_iff _).2 fun b => ?_, (symbolsValid_iff _).2 fun b => ?_, fun h => ?_, ?_⟩
  · rw [State.reset_buf]
    exact Buffer.fits_empty
  · rw [State.reset_buf]
    exact Buffer.symbolsValid_empty
  · exact absurd h Bool.false_ne_true
  · exact ⟨Nat.zero_le _, fun h => absurd h Bool.false_ne_true⟩

/-! ## STATUS and CTRL (R25 to R32) -/

/-- A host read answered with `v` (R51): the HOST gets `v`, and the event is taken off the schedule. -/
theorem step_of_read_answer {s : State} {o : BitVec 8} {v : Word} (h : s.readNext o)
    (hv : hostRead o s.advance = .next (s.advance.answer v)) : step s = .next { s.advance with rdata := some v } :=
  (step_of_readNext h).trans hv

/-- CTRL reads IE in bit 0 (R25). -/
theorem State.ctrlWord_eq (s : State) : s.ctrlWord = if s.ie = true then 1 else 0 := by
  cases h : s.ie <;> simp [State.ctrlWord, h]

theorem State.statusWord_errcode (s : State) {k : Nat} (hk : k < 8) :
    s.statusWord.getLsbD (8 + k) = s.errcode.getLsbD k := by
  simp only [State.statusWord, BitVec.getLsbD_append]
  simp [hk, show 1 < 2 + k by omega]

theorem State.statusWord_reserved (s : State) {k : Nat} (hk : 16 ≤ k) : s.statusWord.getLsbD k = false := by
  obtain ⟨j, rfl⟩ := Nat.exists_eq_add_of_le hk
  have herr : ¬10 + j - 2 < 8 := by omega
  simp only [State.statusWord, BitVec.getLsbD_append]
  simp [herr]

@[simp] theorem State.advance_ctrlWord (s : State) : s.advance.ctrlWord = s.ctrlWord := rfl

@[simp] theorem State.advance_statusWord (s : State) : s.advance.statusWord = s.statusWord := rfl

@[simp] theorem State.advance_selected (s : State) : s.advance.selected = s.selected := rfl

/-- Settles O10. -/
theorem statusReadReturnsFields : Obligations.StatusReadReturnsFields := by
  intro s o h ho
  refine ⟨s.statusWord, step_of_read_answer h (by simp [hostRead, regAt_status ho]), ?_⟩
  refine ⟨?_, ?_, ?_, ?_, ?_, ?_, ?_, ?_, fun k hk => s.statusWord_errcode hk, fun k hk => s.statusWord_reserved hk⟩
  all_goals simp only [State.statusWord, BitVec.getLsbD_append]
  all_goals simp [State.err]

/-- Settles O11. -/
theorem statusWriteClearsFlags : Obligations.StatusWriteClearsFlags := by
  intro s o v h ho
  rw [step_of_writeNext h]
  simp only [hostWrite, regAt_status ho]
  rfl

/-- Settles O12. -/
theorem ctrlHoldsInterruptEnable : Obligations.CtrlHoldsInterruptEnable := by
  intro s o v ho
  refine ⟨fun h => step_of_read_answer h ?_, fun h hv => ?_⟩
  · rw [← State.ctrlWord_eq]
    simp [hostRead, regAt_ctrl ho]
  · rw [step_of_writeNext h]
    simp only [hostWrite, regAt_ctrl ho, writeCtrl, hv]
    rfl

/-! ## The other registers while BUSY = 0 (R24, R33 to R42) -/

/-- The buffer BSEL selects (R37). -/
theorem State.selected_eq {s : State} {b : BufNum} (h : b.val = s.bsel.toNat) : s.selected = b := Fin.ext h.symm

/-- Settles O19, by the thirteen kinds of offset. -/
theorem idleReadsReturnRegisters : Obligations.IdleReadsReturnRegisters := by
  intro s o b h hidle hb
  have hsel := State.selected_eq hb
  refine ⟨fun ho => ?id, fun ho => ?ctrl, fun ho => ?status, fun ho => ?cmd, fun ho => ?arg0, fun ho => ?arg1,
    fun ho => ?result, fun ho => ?bsel, fun ho => ?bidx, fun ho => ?blen, fun ho => ?benc, fun ho => ?capr,
    fun ho => ?unmapped⟩
  all_goals apply step_of_read_answer h
  case unmapped => simp [hostRead, regAt_unmapped ho]
  case ctrl =>
    rw [← State.ctrlWord_eq]
    simp [hostRead, regAt, ho]
  case id => simp [hostRead, regAt, ho, idWord]
  case capr => simp [hostRead, regAt, ho, caprWord]
  case blen | benc => simp [hostRead, regAt, ho, hidle, hsel]
  all_goals simp [hostRead, regAt, ho, hidle]

/-- Settles O20, by the kinds of offset. -/
theorem idleWritesStoreRegisters : Obligations.IdleWritesStoreRegisters := by
  intro s o v h hidle
  rw [step_of_writeNext h]
  refine ⟨fun ho => ?arg0, fun ho => ?arg1, fun ho => ?bsel, fun ho => ?bidx, fun ho => ?readOnly, fun ho => ?unmapped⟩
  case unmapped => simp [hostWrite, regAt_unmapped ho]
  case readOnly =>
    have hindex : (o.extractLsb' 2 6).toNat = 0x00 ∨ (o.extractLsb' 2 6).toNat = 0x06
        ∨ (o.extractLsb' 2 6).toNat = 0x0C := by simpa using ho
    rcases hindex with ho | ho | ho <;> simp [hostWrite, regAt, ho, hidle, writeIdle]
  case bsel =>
    have hbits : v.extractLsb' 0 3 = BitVec.ofNat 3 v.toNat := by
      rw [BitVec.ofNat_toNat, BitVec.setWidth_eq_extractLsb' (by decide)]
    simp [hostWrite, regAt, ho, hidle, writeIdle, hbits]
  all_goals simp [hostWrite, regAt, ho, hidle, writeIdle]

end Sys2Proof.Machine
end

section
/-! Proofs of the family 20_memory: a conversion regroups bits (R59, R93 to R96), where a command can fault (R57), and
the HOST's accesses while BUSY = 1 (R58) and to BDATA, BLEN and BENC (R53 to R56). -/

namespace Sys2Proof.Machine

/-! ## Bit strings of words, most significant bit first (R59) -/

/-- The `n` bits of a word from bit `lo` up, most significant first. -/
def bitsAt {w : Nat} (v : BitVec w) (lo n : Nat) : List Bool := (List.range n).map fun k => v.getLsbD (lo + (n - 1 - k))

/-- Two bit strings of one length are equal where their words agree bit by bit. -/
theorem bitsAt_congr {w w' : Nat} {v : BitVec w} {v' : BitVec w'} {lo lo' n : Nat}
    (h : ∀ k, k < n → v.getLsbD (lo + k) = v'.getLsbD (lo' + k)) : bitsAt v lo n = bitsAt v' lo' n :=
  List.map_congr_left fun k hk => h _ (by have := List.mem_range.1 hk; omega)

theorem msbFirst_eq_bitsAt (n : Nat) (v : Byte) : msbFirst n v = bitsAt v 0 n := by
  simp [msbFirst, bitsAt]

/-- Of `m + n` bits the upper `m` come first. -/
theorem bitsAt_add {w : Nat} (v : BitVec w) (lo m n : Nat) :
    bitsAt v lo (m + n) = bitsAt v (lo + n) m ++ bitsAt v lo n := by
  simp only [bitsAt, List.range_add, List.map_append, List.map_map]
  congr 1 <;> refine List.map_congr_left fun k hk => congrArg v.getLsbD ?_ <;> rw [List.mem_range] at hk
  · omega
  · dsimp only
    omega

/-- A word put together from two carries the bits of both. -/
theorem bitsAt_append {m n : Nat} (x : BitVec m) (y : BitVec n) :
    bitsAt (x ++ y) 0 (m + n) = bitsAt x 0 m ++ bitsAt y 0 n := by
  rw [bitsAt_add]
  congr 1 <;> refine bitsAt_congr fun k hk => ?_
  · simp [BitVec.getLsbD_append]
  · simp [BitVec.getLsbD_append, hk]

@[simp] theorem bitsAt_zero (w lo n : Nat) : bitsAt (0#w) lo n = List.replicate n false := by
  simp [bitsAt, List.map_const']

/-- The symbol cut out of a word carries the bits that were cut. -/
@[simp] theorem msbFirst_symAt {w : Nat} (v : BitVec w) (lo : Nat) {n : Nat} (hn : n ≤ 8) :
    msbFirst n (symAt v lo n) = bitsAt v lo n := by
  rw [msbFirst_eq_bitsAt]
  refine bitsAt_congr fun k hk => ?_
  simp [symAt, hk, show k < 8 by omega]

theorem bitsAt_extractLsb' {w : Nat} (v : BitVec w) (lo n : Nat) : bitsAt (v.extractLsb' lo n) 0 n = bitsAt v lo n :=
  bitsAt_congr fun k hk => by simp [hk]

@[simp] theorem bitsAt_nibble (a : Byte) : bitsAt (nibble a) 0 4 = msbFirst 4 a := by
  rw [nibble, bitsAt_extractLsb', msbFirst_eq_bitsAt]

@[simp] theorem bitsAt_sextet (a : Byte) : bitsAt (sextet a) 0 6 = msbFirst 6 a := by
  rw [sextet, bitsAt_extractLsb', msbFirst_eq_bitsAt]

/-! ## The bits of one symbol (R93) -/

@[simp] theorem symBits_hex (v : Byte) : symBits .hex v = msbFirst 4 v := rfl

@[simp] theorem symBits_raw (v : Byte) : symBits .raw v = msbFirst 8 v := rfl

@[simp] theorem symBits_sentinel : symBits .b64 255#8 = [] := rfl

theorem symBits_b64 {v : Byte} (h : v ≠ 255) : symBits .b64 v = msbFirst 6 v := if_neg h

/-- A sextet is no sentinel. -/
theorem symAt_ne_sentinel {w : Nat} (v : BitVec w) (lo : Nat) : symAt v lo 6 ≠ 255 := by
  intro h
  have hlt := symAt_lt v lo (show 6 ≤ 8 by decide)
  rw [h] at hlt
  exact absurd hlt (by decide)

@[simp] theorem symBits_b64_symAt {w : Nat} (v : BitVec w) (lo : Nat) :
    symBits .b64 (symAt v lo 6) = bitsAt v lo 6 := by
  rw [symBits_b64 (symAt_ne_sentinel v lo), msbFirst_symAt v lo (by decide)]

@[simp] theorem bitString_nil (e : Enc) : bitString e [] = [] := rfl

@[simp] theorem bitString_cons (e : Enc) (v : Byte) (q : List Byte) :
    bitString e (v :: q) = symBits e v ++ bitString e q := rfl

@[simp] theorem bitString_append (e : Enc) (q r : List Byte) :
    bitString e (q ++ r) = bitString e q ++ bitString e r := List.flatMap_append

/-! ## The groups (R94 to R96): the word between keeps the bits -/

theorem bitsAt_append_three {l m n : Nat} (x : BitVec l) (y : BitVec m) (z : BitVec n) :
    bitsAt (x ++ y ++ z) 0 (l + m + n) = bitsAt x 0 l ++ bitsAt y 0 m ++ bitsAt z 0 n := by
  rw [bitsAt_append, bitsAt_append]

theorem bitsAt_append_four {k l m n : Nat} (u : BitVec k) (x : BitVec l) (y : BitVec m) (z : BitVec n) :
    bitsAt (u ++ x ++ y ++ z) 0 (k + l + m + n) = bitsAt u 0 k ++ bitsAt x 0 l ++ bitsAt y 0 m ++ bitsAt z 0 n := by
  rw [bitsAt_append, bitsAt_append_three]

theorem bitsAt_add_three {w : Nat} (v : BitVec w) (lo l m n : Nat) :
    bitsAt v lo (l + m + n) = bitsAt v (lo + n + m) l ++ bitsAt v (lo + n) m ++ bitsAt v lo n := by
  rw [bitsAt_add, bitsAt_add]

theorem bitsAt_add_four {w : Nat} (v : BitVec w) (lo k l m n : Nat) :
    bitsAt v lo (k + l + m + n)
      = bitsAt v (lo + n + m + l) k ++ bitsAt v (lo + n + m) l ++ bitsAt v (lo + n) m ++ bitsAt v lo n := by
  rw [bitsAt_add, bitsAt_add_three]

/-- Three nibbles to two sextets (R94). -/
theorem bitString_groupHexB64 (a b c : Byte) : bitString .hex [a, b, c] = bitString .b64 (groupsHexB64 [a, b, c]) := by
  have hin := bitsAt_append_three (nibble a) (nibble b) (nibble c)
  have hout := bitsAt_add (nibble a ++ nibble b ++ nibble c) 0 6 6
  simpa [groupsHexB64] using hin.symm.trans hout

theorem bitString_groupsHexB64 :
    (q : List Byte) → q.length % 3 = 0 → bitString .hex q = bitString .b64 (groupsHexB64 q)
  | [], _ => rfl
  | [_], h => nomatch h
  | [_, _], h => nomatch h
  | a :: b :: c :: q, h => by
    have hrest := bitString_groupsHexB64 q (by simp only [List.length_cons] at h; omega)
    calc bitString .hex ([a, b, c] ++ q)
      _ = bitString .b64 (groupsHexB64 [a, b, c]) ++ bitString .b64 (groupsHexB64 q) := by
        rw [bitString_append, bitString_groupHexB64, hrest]
      _ = bitString .b64 (groupsHexB64 (a :: b :: c :: q)) := (bitString_append ..).symm

/-- Two sextets to three nibbles (R94). -/
theorem bitString_groupB64Hex {a b : Byte} (ha : a ≠ 255) (hb : b ≠ 255) :
    bitString .b64 [a, b] = bitString .hex (groupsB64Hex [a, b]) := by
  have hin := bitsAt_append (sextet a) (sextet b)
  have hout := bitsAt_add_three (sextet a ++ sextet b) 0 4 4 4
  simpa [groupsB64Hex, symBits_b64 ha, symBits_b64 hb] using hin.symm.trans hout

theorem bitString_groupsB64Hex :
    (q : List Byte) → q.length % 2 = 0 → 255 ∉ q → bitString .b64 q = bitString .hex (groupsB64Hex q)
  | [], _, _ => rfl
  | [_], h, _ => nomatch h
  | a :: b :: q, h, hq => by
    simp only [List.mem_cons, not_or] at hq
    obtain ⟨ha, hb, hq⟩ := hq
    have hrest := bitString_groupsB64Hex q (by simp only [List.length_cons] at h; omega) hq
    calc bitString .b64 ([a, b] ++ q)
      _ = bitString .hex (groupsB64Hex [a, b]) ++ bitString .hex (groupsB64Hex q) := by
        rw [bitString_append, bitString_groupB64Hex (Ne.symm ha) (Ne.symm hb), hrest]
      _ = bitString .hex (groupsB64Hex (a :: b :: q)) := (bitString_append ..).symm

/-- Two nibbles to one byte (R95). -/
theorem symBits_nibbles (a b : Byte) : symBits .raw (nibble a ++ nibble b : BitVec 8) = bitString .hex [a, b] := by
  have hin := bitsAt_append (nibble a) (nibble b)
  simpa [msbFirst_eq_bitsAt 8] using hin

theorem bitString_groupsHexRaw :
    (q : List Byte) → q.length % 2 = 0 → bitString .hex q = bitString .raw (groupsHexRaw q)
  | [], _ => rfl
  | [_], h => nomatch h
  | a :: b :: q, h => by
    have hrest := bitString_groupsHexRaw q (by simp only [List.length_cons] at h; omega)
    rw [groupsHexRaw, bitString_cons .raw, symBits_nibbles, ← hrest, ← bitString_append]
    rfl

/-- One byte to two nibbles (R95). -/
theorem bitString_groupsRawHex (q : List Byte) : bitString .raw q = bitString .hex (groupsRawHex q) := by
  induction q with
  | nil => rfl
  | cons a q ih =>
    have hout := bitsAt_add a 0 4 4
    simp [groupsRawHex, ih, msbFirst_eq_bitsAt 8, hout]

@[simp] theorem padBits_add_three (n : Nat) : padBits (n + 3) = padBits n := by simp [padBits]

/-- Three bytes to four sextets (R96). -/
theorem bitString_groupRawB64 (a b c : Byte) : bitString .raw [a, b, c] = bitString .b64 (groupsRawB64 [a, b, c]) := by
  have hin := bitsAt_append_three a b c
  have hout := bitsAt_add_four (a ++ b ++ c) 0 6 6 6 6
  simpa [groupsRawB64, msbFirst_eq_bitsAt 8] using hin.symm.trans hout

/-- The zero bits that fill the last sextet are the pad bits (R96). -/
theorem bitString_groupsRawB64 :
    (q : List Byte) → bitString .raw q ++ List.replicate (padBits q.length) false = bitString .b64 (groupsRawB64 q)
  | [] => rfl
  | [a] => by
    have hin := bitsAt_append a 0#4
    have hout := bitsAt_add (a ++ 0#4) 0 6 6
    simpa [groupsRawB64, padBits, msbFirst_eq_bitsAt 8] using hin.symm.trans hout
  | [a, b] => by
    have hin := bitsAt_append_three a b 0#2
    have hout := bitsAt_add_three (a ++ b ++ 0#2) 0 6 6 6
    simpa [groupsRawB64, padBits, msbFirst_eq_bitsAt 8] using hin.symm.trans hout
  | a :: b :: c :: q => by
    have hrest := bitString_groupsRawB64 q
    calc bitString .raw ([a, b, c] ++ q) ++ List.replicate (padBits (q.length + 3)) false
      _ = bitString .b64 (groupsRawB64 [a, b, c]) ++ bitString .b64 (groupsRawB64 q) := by
        rw [bitString_append, bitString_groupRawB64, padBits_add_three, List.append_assoc, hrest]
      _ = bitString .b64 (groupsRawB64 (a :: b :: c :: q)) := (bitString_append ..).symm

/-! ## B64 to RAW: the sentinels stand last (R96) -/

/-- The sentinels of a B64 operand are its last `p` symbols. -/
def SentinelsLast (p : Nat) (q : List Byte) : Prop := ∀ i, i < q.length → (q[i]? = some 255 ↔ q.length ≤ i + p)

@[simp] theorem sentinelsLast_nil (p : Nat) : SentinelsLast p [] := fun _ hi => absurd hi (Nat.not_lt_zero _)

@[simp] theorem sentinelsLast_cons (p : Nat) (v : Byte) (q : List Byte) :
    SentinelsLast p (v :: q) ↔ (v = 255 ↔ q.length < p) ∧ SentinelsLast p q := by
  simp only [SentinelsLast, List.length_cons, Nat.forall_lt_succ_left]
  simp [Nat.add_right_comm]

theorem trailingPad_le (q : List Byte) : trailingPad q ≤ 2 := by
  simp only [trailingPad]
  split_ifs <;> omega

/-- The symbols that count as padding are sentinels (R96). -/
theorem getElem?_of_trailingPad {q : List Byte} {i : Nat} (hi : i < q.length) (h : q.length ≤ i + trailingPad q) :
    q[i]? = some 255 := by
  rw [List.getElem?_eq_getElem hi, Option.some.injEq, ← List.getD_eq_getElem q 0 hi]
  simp only [trailingPad] at h
  split_ifs at h with hlast hsecond
  · obtain hi | hi : i = q.length - 1 ∨ i = q.length - 2 := by omega
    · exact hi ▸ hlast.2
    · exact hi ▸ hsecond
  · obtain rfl : i = q.length - 1 := by omega
    exact hlast.2
  · omega

/-- What `packB64Raw` checks of the sentinels (R96). -/
theorem sentinelsLast_trailingPad {q : List Byte} (h : 255 ∉ q.take (q.length - trailingPad q)) :
    SentinelsLast (trailingPad q) q := by
  refine fun i hi => ⟨fun hv => ?_, getElem?_of_trailingPad hi⟩
  by_contra hlt
  exact h (List.mem_of_getElem? ((List.getElem?_take_of_lt (by omega)).trans hv))

/-- Four sextets to three bytes (R96). -/
theorem bitString_groupB64Raw {a b c d : Byte} (ha : a ≠ 255) (hb : b ≠ 255) (hc : c ≠ 255) (hd : d ≠ 255) :
    bitString .b64 [a, b, c, d] = bitString .raw (groupB64Raw a b c d) := by
  have hin := bitsAt_append_four (sextet a) (sextet b) (sextet c) (sextet d)
  have hout := bitsAt_add_three (sextet a ++ sextet b ++ sextet c ++ sextet d) 0 8 8 8
  simpa [groupB64Raw, symBits_b64 ha, symBits_b64 hb, symBits_b64 hc, symBits_b64 hd] using hin.symm.trans hout

@[simp] theorem length_groupB64Raw (a b c d : Byte) : (groupB64Raw a b c d).length = 3 := rfl

/-- Low bits that were checked to be zero. -/
theorem bitsAt_of_extractLsb'_eq_zero {w : Nat} {v : BitVec w} {n : Nat} (h : v.extractLsb' 0 n = 0) :
    bitsAt v 0 n = List.replicate n false := by
  rw [← bitsAt_extractLsb', h]
  exact bitsAt_zero n 0 n

/-- The last group: the pad bits it drops are zero (R96). -/
theorem bitString_lastGroupB64Raw {p : Nat} {a b c d : Byte} {r : List Byte} (hp : p ≤ 2)
    (hs : SentinelsLast p [a, b, c, d]) (h : lastGroupB64Raw p a b c d = .ok r) :
    bitString .b64 [a, b, c, d] = bitString .raw r ++ List.replicate (padBits r.length) false := by
  match p with
  | 0 =>
    obtain rfl := Except.ok.inj h
    obtain ⟨ha, hb, hc, hd⟩ : a ≠ 255 ∧ b ≠ 255 ∧ c ≠ 255 ∧ d ≠ 255 := by simpa using hs
    simp [bitString_groupB64Raw ha hb hc hd, padBits]
  | 1 =>
    obtain ⟨ha, hb, hc, rfl⟩ : a ≠ 255 ∧ b ≠ 255 ∧ c ≠ 255 ∧ d = 255 := by simpa using hs
    simp only [lastGroupB64Raw] at h
    split_ifs at h with hpad
    obtain rfl := Except.ok.inj h
    have hin := bitsAt_append_three (sextet a) (sextet b) (sextet c)
    have hout := bitsAt_add_three (sextet a ++ sextet b ++ sextet c) 0 8 8 2
    rw [bitsAt_of_extractLsb'_eq_zero (not_not.1 hpad)] at hout
    simpa [padBits, symBits_b64 ha, symBits_b64 hb, symBits_b64 hc] using hin.symm.trans hout
  | 2 =>
    obtain ⟨ha, hb, rfl, rfl⟩ : a ≠ 255 ∧ b ≠ 255 ∧ c = 255 ∧ d = 255 := by simpa using hs
    simp only [lastGroupB64Raw] at h
    split_ifs at h with hpad
    obtain rfl := Except.ok.inj h
    have hin := bitsAt_append (sextet a) (sextet b)
    have hout := bitsAt_add (sextet a ++ sextet b) 0 8 4
    rw [bitsAt_of_extractLsb'_eq_zero (not_not.1 hpad)] at hout
    simpa [padBits, symBits_b64 ha, symBits_b64 hb] using hin.symm.trans hout

/-- A group with more symbols after it is no last group (R96). -/
theorem groupsB64Raw_ok {p : Nat} {a b c d e : Byte} {q r : List Byte}
    (h : groupsB64Raw p (a :: b :: c :: d :: e :: q) = .ok r) :
    ∃ r', groupsB64Raw p (e :: q) = .ok r' ∧ r = groupB64Raw a b c d ++ r' := by
  rw [groupsB64Raw] at h
  · split at h
    · next r' hr' => exact ⟨r', hr', (Except.ok.inj h).symm⟩
    · contradiction
  · exact List.cons_ne_nil e q

theorem bitString_groupsB64Raw {p : Nat} (hp : p ≤ 2) : (q : List Byte) → {r : List Byte} → q.length % 4 = 0 →
    SentinelsLast p q → groupsB64Raw p q = .ok r →
    bitString .b64 q = bitString .raw r ++ List.replicate (padBits r.length) false
  | [], _, _, _, h => by
    obtain rfl := Except.ok.inj h
    rfl
  | [_], _, hlen, _, _ => nomatch hlen
  | [_, _], _, hlen, _, _ => nomatch hlen
  | [_, _, _], _, hlen, _, _ => nomatch hlen
  | [a, b, c, d], _, _, hs, h => bitString_lastGroupB64Raw hp hs h
  | a :: b :: c :: d :: e :: q, r, hlen, hs, h => by
    obtain ⟨r', hr', rfl⟩ := groupsB64Raw_ok h
    simp only [sentinelsLast_cons, List.length_cons] at hlen hs
    obtain ⟨ha, hb, hc, hd, hs⟩ := hs
    have hgroup : bitString .b64 [a, b, c, d] = bitString .raw (groupB64Raw a b c d) :=
      bitString_groupB64Raw (mt ha.1 (by omega)) (mt hb.1 (by omega)) (mt hc.1 (by omega)) (mt hd.1 (by omega))
    have hrest := bitString_groupsB64Raw hp (e :: q) (by simp only [List.length_cons]; omega) (by simpa using hs) hr'
    calc bitString .b64 ([a, b, c, d] ++ e :: q)
      _ = bitString .raw (groupB64Raw a b c d ++ r') ++ List.replicate (padBits r'.length) false := by
        rw [bitString_append, hgroup, hrest, bitString_append, List.append_assoc]
      _ = _ := by simp [Nat.add_comm 3]

/-! ## The conversions that go through (R93) -/

theorem bitString_packHexB64 {q r : List Byte} (h : packHexB64 q = .ok r) : bitString .hex q = bitString .b64 r := by
  unfold packHexB64 at h
  split_ifs at h with hlen
  exact Except.ok.inj h ▸ bitString_groupsHexB64 q (not_not.1 hlen)

theorem bitString_packB64Hex {q r : List Byte} (h : packB64Hex q = .ok r) : bitString .b64 q = bitString .hex r := by
  unfold packB64Hex at h
  split_ifs at h with hlen hsentinel
  exact Except.ok.inj h ▸ bitString_groupsB64Hex q (not_not.1 hlen) hsentinel

theorem bitString_packHexRaw {q r : List Byte} (h : packHexRaw q = .ok r) : bitString .hex q = bitString .raw r := by
  unfold packHexRaw at h
  split_ifs at h with hlen
  exact Except.ok.inj h ▸ bitString_groupsHexRaw q (not_not.1 hlen)

theorem bitString_packB64Raw {q r : List Byte} (h : packB64Raw q = .ok r) :
    bitString .b64 q = bitString .raw r ++ List.replicate (padBits r.length) false := by
  unfold packB64Raw at h
  split_ifs at h with hlen hsentinel
  exact bitString_groupsB64Raw (trailingPad_le q) q (not_not.1 hlen) (sentinelsLast_trailingPad hsentinel) h

/-- Settles O40, by the pairs of encodings: the words of a group carry the bits of its symbols on both sides, and only
the B64 form of bytes has pad bits. -/
theorem conversionRegroupsBits : Obligations.ConversionRegroupsBits := by
  intro f t q r hf ht _ h
  cases f with
  | hex =>
    cases t with
    | hex => simp [Except.ok.inj h]
    | b64 => simpa using bitString_packHexB64 h
    | raw => simpa using bitString_packHexRaw h
    | text => contradiction
  | b64 =>
    cases t with
    | hex => simpa using bitString_packB64Hex h
    | b64 => simp [Except.ok.inj h]
    | raw => simpa using bitString_packB64Raw h
    | text => contradiction
  | raw =>
    cases t with
    | hex => simpa [← Except.ok.inj h] using bitString_groupsRawHex q
    | b64 => simpa [← Except.ok.inj h] using bitString_groupsRawB64 q
    | raw => simp [Except.ok.inj h]
    | text => contradiction
  | text => contradiction

/-! ## Where a command can fault (R57) -/

/-- What a command can answer from `s`: a next state, or the fault of an undefined slot of one of its operands where
UNDEF_READ is `fault`. -/
inductive CommandAnswer (i : Instr) (s : State) : Result → Prop
  | next (t : State) : CommandAnswer i s (.next t)
  | fault (b : BufNum) (k : Nat) (hu : Config.undefRead = .fault) (hb : b ∈ sourcesOf i) (hk : k < (s.buf b).len)
      (hn : s.slot b k = none) : CommandAnswer i s (.fault (.undefinedOperand (mnemonicOf i) b k))

section CommandAnswer

variable {i : Instr} {s : State}

/-- Draws change no buffer, so the slots that can fault are the same. -/
theorem CommandAnswer.of_withDraws {d : Nat} {r : Result} (h : CommandAnswer i (s.withDraws d) r) :
    CommandAnswer i s r := by
  cases h with
  | next t => exact .next t
  | fault b k hu hb hk hn => exact .fault b k hu hb hk hn

/-- A refusal with a code is a next state; else the command goes on. -/
theorem CommandAnswer.check {p : Prop} [Decidable p] (c : Code) {r : Result} (hr : CommandAnswer i s r) :
    CommandAnswer i s (if p then raise c s else r) := by
  split_ifs
  · exact .next _
  · exact hr

/-- Reading an operand faults at an undefined slot of it, or the command goes on. -/
theorem CommandAnswer.withSyms {b : BufNum} (hb : b ∈ sourcesOf i) {k : List Byte → State → Result}
    (hk : ∀ q d, CommandAnswer i (s.withDraws d) (k q (s.withDraws d))) :
    CommandAnswer i s (withSyms (mnemonicOf i) b s k) := by
  rcases withSyms_cases (mnemonicOf i) b s k with ⟨j, hj, he⟩ | ⟨q, d, -, he⟩
  · obtain ⟨-, hlt, hn, hu⟩ := readSeq_error hj
    exact he ▸ .fault b j hu hb (by simpa using hlt) hn
  · exact he ▸ (hk q d).of_withDraws

theorem CommandAnswer.withRoundKey {k : Block → Result} (hk : ∀ x, CommandAnswer i s (k x)) :
    CommandAnswer i s (withRoundKey s k) := by
  rcases withRoundKey_cases s k with ⟨-, he⟩ | ⟨-, -, he⟩ | ⟨_, -, he⟩
  · exact he ▸ .next _
  · exact he ▸ .next _
  · exact he ▸ hk _

theorem execParse_answer (d a : BufNum) (e : Enc) (s : State) : CommandAnswer (.parse d a e) s (execParse d a e s) := by
  refine .check _ <| .check _ <| .withSyms (List.mem_singleton_self a) fun q n => ?_
  cases parseSyms e q with
  | none => exact .next _
  | some r => exact .next _

theorem execConvert_answer (d a : BufNum) (e : Enc) (s : State) :
    CommandAnswer (.convert d a e) s (execConvert d a e s) := by
  refine .check _ <| .check _ <| .withSyms (List.mem_singleton_self a) fun q n => ?_
  simp only [State.withDraws_buf]
  cases pack (s.buf a).enc e q with
  | error c => exact .next _
  | ok r => exact .check _ <| .next _

theorem execTblrd_answer (s : State) : CommandAnswer .tblrd s (execTblrd s) := by
  unfold execTblrd
  cases tableEntry s.arg1Nat s.arg0Nat with
  | none => exact .next _
  | some v => exact .next _

/-- A command answers with a next state, or faults at an undefined slot of an operand; none is refused. -/
theorem exec_answer (i : Instr) (s : State) : CommandAnswer i s (exec i s) := by
  cases i with
  | nop => exact .next _
  | parse d a e => exact execParse_answer d a e s
  | render d a => exact .check _ <| .withSyms (List.mem_singleton_self a) fun _ _ => .next _
  | convert d a e => exact execConvert_answer d a e s
  | slice d a => exact .check _ <| .check _ <| .withSyms (List.mem_singleton_self a) fun _ _ => .next _
  | xor d a b =>
    refine .check _ <| .withSyms ?_ fun _ _ => .withSyms ?_ fun _ _ => .check _ <| .check _ <| .check _ <| .next _
    · exact List.mem_cons_self
    · exact List.mem_cons_of_mem _ (List.mem_singleton_self b)
  | hamm a b =>
    refine .check _ <| .check _ <| .withSyms ?_ fun _ _ => .withSyms ?_ fun _ _ => .next _
    · exact List.mem_cons_self
    · exact List.mem_cons_of_mem _ (List.mem_singleton_self b)
  | keyexp a => exact .check _ <| .check _ <| .withSyms (List.mem_singleton_self a) fun _ _ => .next _
  | dececb d a b =>
    refine .check _ <| .check _ <| .check _ <| .withSyms ?_ fun _ _ => .withSyms ?_ fun _ _ => .next _
    · exact List.mem_cons_of_mem _ (List.mem_singleton_self b)
    · exact List.mem_cons_self
  | stld a => exact .check _ <| .check _ <| .withSyms (List.mem_singleton_self a) fun _ _ => .next _
  | stst d => exact .next _
  | ark => exact .withRoundKey (k := fun k => succeed (s.setSt (addRoundKey s.st k))) fun _ => .next _
  | isr => exact .next _
  | isb => exact .next _
  | imc => exact .next _
  | decblk => exact .check _ <| .next _
  | rkrd d => exact .withRoundKey (k := fun k => succeed (s.bufWrite d .raw k.bytes)) fun _ => .next _
  | tblrd => exact execTblrd_answer s

end CommandAnswer

/-- Settles O23, by what a command can answer. -/
theorem commandsFaultOnlyAtUndefinedSlots : Obligations.CommandsFaultOnlyAtUndefinedSlots := by
  intro i s
  have h := exec_answer i s
  generalize exec i s = answer at h
  cases h with
  | next t => exact ⟨nofun, nofun⟩
  | fault b k hu hb hk hn => exact ⟨fun r hr => ⟨hu, b, k, (Host.Outcome.fault.inj hr).symm, hb, hk, hn⟩, nofun⟩

/-! ## Host accesses while BUSY = 1 (R58) -/

/-- A read while BUSY = 1 returns a value, or sets OVR; the port of BDATA is not reached. -/
theorem hostRead_of_busy {s : State} (h : s.busy = true) (o : BitVec 8) :
    hostRead o s = .next s.overrunRead ∨ ∃ v, hostRead o s = .next (s.answer v) := by
  unfold hostRead
  split
  case h_7 | h_10 | h_11 | h_12 => exact .inl (if_pos h)
  all_goals exact .inr ⟨_, rfl⟩

/-- What a write while BUSY = 1 leads to: only CTRL and STATUS take it. -/
inductive BusyWrite (o : BitVec 8) (v : Word) (s : State) : State → Prop
  | reset (ho : regAt o = .ctrl) (hv : v.getLsbD 1 = true) : BusyWrite o v s s.resetBlock
  | ie : BusyWrite o v s { s with ie := v.getLsbD 0 }
  | status : BusyWrite o v s (s.writeStatus v)
  | unmapped : BusyWrite o v s s
  | overrun : BusyWrite o v s s.overrunWrite

theorem hostWrite_of_busy {s : State} (h : s.busy = true) (o : BitVec 8) (v : Word) :
    BusyWrite o v s (hostWrite o v s) := by
  unfold hostWrite
  split
  · next ho =>
    unfold writeCtrl
    split_ifs with hv
    · exact .reset ho hv
    · exact .ie
  · exact .status
  · exact .unmapped
  · rw [if_pos h]
    exact .overrun

/-- Settles O9: while BUSY = 1 a read moves OVR and the HOST's side alone, and a write that is no reset IE and the flags
alone. -/
theorem commandInProgressKeepsOperands : Obligations.CommandInProgressKeepsOperands := by
  intro s t hbusy hengine hreset hsoft h
  rcases s.turn_cases with hs | ⟨o, hs⟩ | ⟨o, v, hs⟩ | hs
  · exact absurd hs hengine
  · rw [step_of_readNext hs] at h
    rcases hostRead_of_busy (s := s.advance) hbusy o with he | ⟨v, he⟩
    all_goals
      obtain rfl := Host.Outcome.next.inj (he.symm.trans h)
      exact ⟨hbusy, rfl, rfl, rfl, fun _ => rfl, rfl, rfl, rfl, rfl, rfl, rfl⟩
  · rw [step_of_writeNext hs] at h
    have hw := hostWrite_of_busy (s := s.advance) hbusy o v
    rw [Host.Outcome.next.inj h] at hw
    cases hw with
    | reset ho hv => exact absurd ⟨o, v, hs, index_of_regAt_ctrl ho, hv⟩ hsoft
    | _ => exact ⟨hbusy, rfl, rfl, rfl, fun _ => rfl, rfl, rfl, rfl, rfl, rfl, rfl⟩
  · exact absurd hs hreset

/-- A write while BUSY = 1 of any mapped register but CTRL and STATUS (R58). -/
theorem hostWrite_overrun {s : State} (hbusy : s.busy = true) {o : BitVec 8}
    (ho : (o.extractLsb' 2 6).toNat = 0x00 ∨ 0x03 ≤ (o.extractLsb' 2 6).toNat)
    (hle : (o.extractLsb' 2 6).toNat ≤ 0x0C)
    (v : Word) : hostWrite o v s = s.overrunWrite := by
  unfold hostWrite regAt
  generalize (o.extractLsb' 2 6).toNat = n at ho hle
  interval_cases n
  · exact if_pos hbusy
  · omega
  · omega
  all_goals exact if_pos hbusy

/-- Settles O8, by the kinds of offset. -/
theorem accessesWhileBusy : Obligations.AccessesWhileBusy := by
  refine fun s o v hbusy => ⟨fun h => ?read, fun h => ?write⟩
  case read =>
    refine ⟨fun ho => ?refused, fun ho => ?id, fun ho => ?ctrl, fun ho => ?status, fun ho => ?cmd, fun ho => ?arg0,
      fun ho => ?arg1, fun ho => ?bsel, fun ho => ?bidx, fun ho => ?capr, fun ho => ?unmapped⟩
    case refused =>
      rw [step_of_readNext h]
      simp only [List.mem_cons, List.not_mem_nil, or_false] at ho
      rcases ho with ho | ho | ho | ho <;> simp [hostRead, regAt, ho, hbusy, State.overrunRead]
    case ctrl => exact (ctrlHoldsInterruptEnable s o v (BitVec.eq_of_toNat_eq ho)).1 h
    all_goals apply step_of_read_answer h
    case unmapped => simp [hostRead, regAt_unmapped ho]
    case id => simp [hostRead, regAt, ho, idWord]
    case capr => simp [hostRead, regAt, ho, caprWord]
    all_goals simp [hostRead, regAt, ho]
  case write =>
    refine ⟨fun ho hv => ?ie, fun ho hv => ?reset, fun ho => ?flags, fun ho hle => ?overrun, fun ho => ?noReg⟩
    case ie => exact (ctrlHoldsInterruptEnable s o v (BitVec.eq_of_toNat_eq ho)).2 h hv
    case reset =>
      have hsoft : s.softResetNext := ⟨o, v, h, BitVec.eq_of_toNat_eq ho, hv⟩
      exact ⟨_, step_of_softResetNext hsoft, s.advance.resetBlock_hasResetValues⟩
    case flags => exact statusWriteClearsFlags s o v h (BitVec.eq_of_toNat_eq ho)
    case overrun =>
      rw [step_of_writeNext h, hostWrite_overrun (s := s.advance) hbusy ho hle]
      rfl
    case noReg => simp [step_of_writeNext h, hostWrite, regAt_unmapped ho]

/-! ## The ports of a buffer while BUSY = 0 (R53 to R56) -/

theorem readBdata_refused {s : State} (hi : Config.cap ≤ s.bidx.toNat) :
    readBdata s = .next { s with perr := true, rdata := some 0 } := if_pos hi

/-- R53: the HOST gets the slot's symbol, and BIDX advances. -/
theorem readBdata_some {s : State} (hi : s.bidx.toNat < Config.cap) {v : Byte} {d : Nat}
    (hr : readSlot (s.buf s.selected).sym s.bidx.toNat s.draws = some (v, d)) :
    readBdata s = .next { s with bidx := s.bidx + 1, draws := d, rdata := some (BitVec.ofNat 32 v.toNat) } := by
  simp [readBdata, Nat.not_le_of_lt hi, hr]

theorem readBdata_none {s : State} (hi : s.bidx.toNat < Config.cap)
    (hr : readSlot (s.buf s.selected).sym s.bidx.toNat s.draws = none) :
    readBdata s = .fault (.undefinedPortRead s.selected s.bidx.toNat) := by
  simp [readBdata, Nat.not_le_of_lt hi, hr]

/-- Settles O15, by what reading the slot gives. -/
theorem bdataReadWhileIdle : Obligations.BdataReadWhileIdle := by
  intro s o h ho hidle
  have hstep : step s = readBdata s.advance := by
    rw [step_of_readNext h]
    simp [hostRead, regAt, ho, hidle]
  rw [hstep]
  refine ⟨readBdata_refused (s := s.advance), fun hi => ⟨fun v hv => ?_, fun hn => ⟨fun hu => ?_, fun hu => ?_⟩⟩⟩
  · exact readBdata_some (s := s.advance) hi (readSlot_defined hv)
  · exact readBdata_some (s := s.advance) hi (readSlot_draw s.draws hn hu)
  · exact readBdata_none (s := s.advance) hi (readSlot_fault s.draws hn hu)

/-- A write while BUSY = 0 of any register but CTRL and STATUS (R52). -/
theorem step_of_idleWrite {s : State} {o : BitVec 8} {v : Word} (h : s.writeNext o v) (hidle : s.busy = false)
    {r : Reg} (hr : regAt o = r) (hctrl : r ≠ .ctrl) (hstatus : r ≠ .status) :
    step s = .next (writeIdle r v s.advance) := by
  rw [step_of_writeNext h, hostWrite, hr]
  cases r with
  | ctrl => contradiction
  | status => contradiction
  | _ => simp [hidle, writeIdle]

/-- A refused port access sets PERR (R30). -/
theorem writeBdata_refused {s : State} (h : Config.cap ≤ s.bidx.toNat ∨ (s.buf s.selected).hostWritable = false)
    (v : Word) : writeBdata v s = s.refusePort := by
  simp only [writeBdata]
  exact if_pos h

/-- R54: one slot of the selected buffer is stored, and BIDX advances. -/
theorem writeBdata_stored {s : State} (hi : s.bidx.toNat < Config.cap)
    (hw : (s.buf s.selected).hostWritable = true) (v : Word) :
    writeBdata v s = State.setBuf { s with bidx := s.bidx + 1 } s.selected { s.buf s.selected with
      sym := (s.buf s.selected).sym.write s.bidx.toNat (BitVec.ofNat 8 v.toNat) } := by
  have hbyte : v.extractLsb' 0 8 = BitVec.ofNat 8 v.toNat := by
    rw [BitVec.ofNat_toNat, BitVec.setWidth_eq_extractLsb' (by decide)]
  simp only [writeBdata, hbyte]
  rw [if_neg (by simp [Nat.not_le_of_lt hi, hw])]
  rfl

theorem writeBlen_refused {s : State} {v : Word}
    (h : Config.cap < v.toNat ∨ (s.buf s.selected).hostWritable = false) : writeBlen v s = s.refusePort := by
  simp only [writeBlen]
  exact if_pos h

theorem writeBlen_stored {s : State} {v : Word} (hv : v.toNat ≤ Config.cap)
    (hw : (s.buf s.selected).hostWritable = true) :
    writeBlen v s = s.setBuf s.selected { s.buf s.selected with len := v.toNat } := by
  simp [writeBlen, Nat.not_lt_of_le hv, hw]

theorem Buffer.not_hostWritable_iff (b : Buffer) : b.hostWritable = false ↔ b.enc = .hex ∨ b.enc = .b64 := by
  cases h : b.enc <;> simp [Buffer.hostWritable, h]

/-- Settles O16, by whether the write is refused. -/
theorem bdataWriteWhileIdle : Obligations.BdataWriteWhileIdle := by
  intro s o v b h ho hidle hb
  obtain rfl := State.selected_eq hb
  rw [step_of_idleWrite h hidle (r := .bdata) (by simp [regAt, ho]) nofun nofun, writeIdle]
  refine ⟨fun hrefused => ?refused, fun hi hw => ?stored⟩
  case refused =>
    rw [← Buffer.not_hostWritable_iff] at hrefused
    rw [writeBdata_refused (s := s.advance) hrefused]
    rfl
  case stored =>
    rw [← Buffer.hostWritable_iff] at hw
    rw [writeBdata_stored (s := s.advance) hi hw]
    refine ⟨_, rfl, rfl, rfl, ?enc, ?len, ?symbol, fun i hne => ?otherSlot, fun c hc => ?otherBuffer⟩
    case enc => simp
    case len => simp
    case symbol => simp [State.slot]
    case otherSlot => simp [State.slot, Memory.read_write_other _ _ hne]
    case otherBuffer => exact State.buf_setBuf_other _ _ _ _ hc

/-- Settles O17, by whether the write is refused. -/
theorem blenWriteWhileIdle : Obligations.BlenWriteWhileIdle := by
  intro s o v b h ho hidle hb
  obtain rfl := State.selected_eq hb
  rw [step_of_idleWrite h hidle (r := .blen) (by simp [regAt, ho]) nofun nofun, writeIdle]
  refine ⟨fun hrefused => ?refused, fun hv hw => ?stored⟩
  case refused =>
    rw [← Buffer.not_hostWritable_iff] at hrefused
    rw [writeBlen_refused (s := s.advance) hrefused]
    rfl
  case stored =>
    rw [← Buffer.hostWritable_iff] at hw
    rw [writeBlen_stored (s := s.advance) hv hw]
    exact ⟨_, rfl, rfl, rfl, by simp, fun c hc => by simp [hc]⟩

/-- Settles O18, by the four values of bits 1:0. -/
theorem bencWriteWhileIdle : Obligations.BencWriteWhileIdle := by
  intro s o v b h ho hidle hb
  obtain rfl := State.selected_eq hb
  have hbits : (v.extractLsb' 0 2).toNat = v.toNat % 4 := by simp
  rw [step_of_idleWrite h hidle (r := .benc) (by simp [regAt, ho]) nofun nofun, writeIdle, writeBenc, Enc.ofCode, hbits]
  have hlt : v.toNat % 4 < 4 := Nat.mod_lt _ (by decide)
  generalize v.toNat % 4 = n at hlt
  refine ⟨fun hn => ?refused, fun hn => ?stored⟩
  case refused =>
    interval_cases n
    all_goals rfl
  case stored =>
    interval_cases n
    all_goals exact ⟨_, rfl, rfl, rfl, by simp, fun c hc => by simp [hc]⟩

end Sys2Proof.Machine
end

section
/-! Proofs of the family 30_encoding: the decoder and the encoder are inverse (R83 to R87), a command's tokens read back
as the command (R88), and LOAD fills a buffer (R89). -/

namespace Sys2Proof

open Machine

/-! ## The fields of an assembled word (R80, R84) -/

@[simp] theorem fieldD_assemble (op : BitVec 8) (d a b : BitVec 3) (e : BitVec 2) :
    fieldD (assemble op d a b e) = d := by
  ext i hi
  simp [fieldD, assemble, show 8 + i < 32 by omega, show 8 + i < 17 by omega, show 8 + i < 14 by omega,
    show 8 + i < 11 by omega, hi]

@[simp] theorem fieldA_assemble (op : BitVec 8) (d a b : BitVec 3) (e : BitVec 2) :
    fieldA (assemble op d a b e) = a := by
  ext i hi
  have hop : op.getLsbD (11 + i) = false := BitVec.getLsbD_of_ge _ _ (by omega)
  have hd : d.getLsbD (11 + i - 8) = false := BitVec.getLsbD_of_ge _ _ (by omega)
  simp [fieldA, assemble, hop, hd, show 11 + i < 32 by omega, show 11 + i < 17 by omega, show 11 + i < 14 by omega, hi]

@[simp] theorem fieldB_assemble (op : BitVec 8) (d a b : BitVec 3) (e : BitVec 2) :
    fieldB (assemble op d a b e) = b := by
  ext i hi
  have hop : op.getLsbD (14 + i) = false := BitVec.getLsbD_of_ge _ _ (by omega)
  have hd : d.getLsbD (14 + i - 8) = false := BitVec.getLsbD_of_ge _ _ (by omega)
  have ha : a.getLsbD (14 + i - 11) = false := BitVec.getLsbD_of_ge _ _ (by omega)
  simp [fieldB, assemble, hop, hd, ha, show 14 + i < 32 by omega, show 14 + i < 17 by omega, hi]

@[simp] theorem fieldE_assemble (op : BitVec 8) (d a b : BitVec 3) (e : BitVec 2) :
    fieldE (assemble op d a b e) = e := by
  ext i hi
  have hop : op.getLsbD (17 + i) = false := BitVec.getLsbD_of_ge _ _ (by omega)
  have hd : d.getLsbD (17 + i - 8) = false := BitVec.getLsbD_of_ge _ _ (by omega)
  have ha : a.getLsbD (17 + i - 11) = false := BitVec.getLsbD_of_ge _ _ (by omega)
  have hb : b.getLsbD (17 + i - 14) = false := BitVec.getLsbD_of_ge _ _ (by omega)
  simp [fieldE, assemble, hop, hd, ha, hb, show 17 + i < 32 by omega, hi]

/-- Equal fields have equal bits. -/
theorem getLsbD_eq_of_extractLsb'_eq {w w' : Word} {lo n : Nat} (h : w.extractLsb' lo n = w'.extractLsb' lo n) {i : Nat}
    (hlo : lo ≤ i) (hhi : i < lo + n) : w.getLsbD i = w'.getLsbD i := by
  have hbit := congrArg (BitVec.getLsbD · (i - lo)) h
  simpa [show i - lo < n by omega, Nat.add_sub_cancel' hlo] using hbit

/-- A word is its five fields and its reserved bits (R80): every bit lies in one of them. -/
theorem word_eq_of_fields {w w' : Word} (hop : fieldOp w = fieldOp w') (hd : fieldD w = fieldD w')
    (ha : fieldA w = fieldA w') (hb : fieldB w = fieldB w') (he : fieldE w = fieldE w')
    (hres : fieldReserved w = fieldReserved w') : w = w' := by
  refine BitVec.eq_of_getLsbD_eq fun i hi => ?_
  have hplace : i < 8 ∨ (8 ≤ i ∧ i < 11) ∨ (11 ≤ i ∧ i < 14) ∨ (14 ≤ i ∧ i < 17) ∨ (17 ≤ i ∧ i < 19) ∨ 19 ≤ i := by
    omega
  rcases hplace with h | ⟨h, h'⟩ | ⟨h, h'⟩ | ⟨h, h'⟩ | ⟨h, h'⟩ | h
  · exact getLsbD_eq_of_extractLsb'_eq hop (Nat.zero_le i) (by omega)
  · exact getLsbD_eq_of_extractLsb'_eq hd h h'
  · exact getLsbD_eq_of_extractLsb'_eq ha h h'
  · exact getLsbD_eq_of_extractLsb'_eq hb h h'
  · exact getLsbD_eq_of_extractLsb'_eq he h h'
  · exact getLsbD_eq_of_extractLsb'_eq hres h (by omega)

/-- A word whose reserved bits are zero is assembled from its fields (R84). -/
theorem assemble_eq_of_fields {w : Word} {op : BitVec 8} {d a b : BitVec 3} {e : BitVec 2} (hres : fieldReserved w = 0)
    (hop : (fieldOp w).toNat = op.toNat) (hd : fieldD w = d) (ha : fieldA w = a) (hb : fieldB w = b)
    (he : fieldE w = e) : assemble op d a b e = w :=
  word_eq_of_fields ((fieldOp_assemble ..).trans (BitVec.eq_of_toNat_eq hop.symm)) ((fieldD_assemble ..).trans hd.symm)
    ((fieldA_assemble ..).trans ha.symm) ((fieldB_assemble ..).trans hb.symm) ((fieldE_assemble ..).trans he.symm)
    ((fieldReserved_assemble ..).trans hres.symm)

/-! ## The values of a field (R16, R81) -/

@[simp] theorem bufNum_bufField (b : BufNum) : bufNum (bufField b) = b :=
  Fin.ext (by simp [bufNum, bufField])

@[simp] theorem bufField_bufNum (x : BitVec 3) : bufField (bufNum x) = x := by
  simp [bufNum, bufField]

@[simp] theorem Enc.ofCode_code (e : Enc) : Enc.ofCode e.code = e := by
  cases e <;> rfl

@[simp] theorem Enc.code_ofCode (c : BitVec 2) : (Enc.ofCode c).code = c := by
  decide +revert

/-- E = 3 is the one encoding a command cannot name (R81, R85 item 4). -/
theorem Enc.nameable_iff (e : Enc) : e.nameable = true ↔ e.code ≠ 3 := by
  cases e <;> decide

/-! ## The field checks of the decoder (R85) -/

theorem requireZero_eq_ok_iff {n : Nat} {x : BitVec n} {why : Illegal} {k : Except Illegal Instr} {i : Instr} :
    requireZero x why k = .ok i ↔ x = 0 ∧ k = .ok i := by
  unfold requireZero
  split <;> simp_all

theorem requireEnc_eq_ok_iff {w : Word} {k : Enc → Except Illegal Instr} {i : Instr} :
    requireEnc w k = .ok i ↔ fieldE w ≠ 3 ∧ k (Enc.ofCode (fieldE w)) = .ok i := by
  unfold requireEnc
  split <;> simp_all

/-- The decoder refuses the word. -/
def Refused (r : Except Illegal Instr) : Prop := ∃ why, r = .error why

theorem refused_error (why : Illegal) : Refused (.error why) := ⟨why, rfl⟩

theorem not_refused_ok (i : Instr) : ¬Refused (.ok i) := nofun

theorem refused_requireZero_iff {n : Nat} {x : BitVec n} {why : Illegal} {k : Except Illegal Instr} :
    Refused (requireZero x why k) ↔ x ≠ 0 ∨ Refused k := by
  unfold requireZero
  split <;> simp_all [refused_error]

theorem refused_requireEnc_iff {w : Word} {k : Enc → Except Illegal Instr} :
    Refused (requireEnc w k) ↔ fieldE w = 3 ∨ Refused (k (Enc.ofCode (fieldE w))) := by
  unfold requireEnc
  split <;> simp_all [refused_error]

/-! ## Decoding the word of a command (R84, R87) -/

/-- Settles O1: each field of the word is the operand it was assembled from, and the fields the command does not use are
zero. -/
theorem decodeEncodeWellFormed : Obligations.DecodeEncodeWellFormed := by
  intro i hwf
  cases i with
  | parse d a e | convert d a e =>
    have hcode : e.code ≠ 3#2 := e.nameable_iff.1 hwf
    simp [decode, encode, opcode, decodeFields, requireZero, requireEnc, fieldReserved_assemble, fieldOp_assemble,
      hcode]
  | _ => simp [decode, encode, opcode, decodeFields, requireZero, fieldReserved_assemble, fieldOp_assemble]

/-- Settles O2: in each row of R83 the checks leave the word no field but those of the command. -/
theorem legalWordsHaveOneCommand : Obligations.LegalWordsHaveOneCommand := by
  intro w i h
  obtain ⟨hres, h⟩ := requireZero_eq_ok_iff.1 h
  have hbuf : ∀ x : BitVec 3, x = bufField (bufNum x) := fun x => (bufField_bufNum x).symm
  unfold decodeFields at h
  split at h
  case h_19 => contradiction
  all_goals
    rename_i hop
    simp only [requireZero_eq_ok_iff, requireEnc_eq_ok_iff, Except.ok.injEq] at h
  case h_2 | h_4 => -- D, A and E: PARSE, CONVERT
    obtain ⟨hb, he, rfl⟩ := h
    have hwf : (Enc.ofCode (fieldE w)).nameable = true := (Enc.nameable_iff _).2 (by rwa [Enc.code_ofCode])
    exact ⟨hwf, assemble_eq_of_fields hres hop (hbuf _) (hbuf _) hb (Enc.code_ofCode _).symm⟩
  case h_3 | h_5 => -- D and A: RENDER, SLICE
    obtain ⟨hb, he, rfl⟩ := h
    exact ⟨rfl, assemble_eq_of_fields hres hop (hbuf _) (hbuf _) hb he⟩
  case h_6 | h_9 => -- D, A and B: XOR, DECECB
    obtain ⟨he, rfl⟩ := h
    exact ⟨rfl, assemble_eq_of_fields hres hop (hbuf _) (hbuf _) (hbuf _) he⟩
  case h_7 => -- A and B: HAMM
    obtain ⟨hd, he, rfl⟩ := h
    exact ⟨rfl, assemble_eq_of_fields hres hop hd (hbuf _) (hbuf _) he⟩
  case h_8 | h_10 => -- A: KEYEXP, STLD
    obtain ⟨hd, hb, he, rfl⟩ := h
    exact ⟨rfl, assemble_eq_of_fields hres hop hd (hbuf _) hb he⟩
  case h_11 | h_17 => -- D: STST, RKRD
    obtain ⟨ha, hb, he, rfl⟩ := h
    exact ⟨rfl, assemble_eq_of_fields hres hop (hbuf _) ha hb he⟩
  all_goals -- no field
    obtain ⟨hd, ha, hb, he, rfl⟩ := h
    exact ⟨rfl, assemble_eq_of_fields hres hop hd ha hb he⟩

/-! ## The illegal words (R85) -/

/-- R85 items 1, 3 and 4, row by row of R83. -/
theorem refused_decodeFields_iff (w : Word) :
    Refused (decodeFields w) ↔ (fieldOp w).toNat ≥ 0x12
      ∨ (¬usesD (fieldOp w).toNat ∧ fieldD w ≠ 0) ∨ (¬usesA (fieldOp w).toNat ∧ fieldA w ≠ 0)
      ∨ (¬usesB (fieldOp w).toNat ∧ fieldB w ≠ 0) ∨ (¬usesE (fieldOp w).toNat ∧ fieldE w ≠ 0)
      ∨ (usesE (fieldOp w).toNat ∧ fieldE w = 3) := by
  unfold decodeFields
  split
  case h_19 =>
    have hge : (fieldOp w).toNat ≥ 0x12 := by
      simp only [imp_false] at *
      omega
    exact iff_of_true (refused_error _) (.inl hge)
  all_goals
    next hop =>
    simp [hop, usesD, usesA, usesB, usesE, refused_requireZero_iff, refused_requireEnc_iff, not_refused_ok]

/-- The words the decoder refuses are those of R85. -/
theorem refused_decode_iff (w : Word) : Refused (decode w) ↔ illegalWord w := by
  rw [decode, refused_requireZero_iff, refused_decodeFields_iff]
  exact or_left_comm

/-- Settles O3: the ENGINE raises IllegalCommand on a word that the decoder refuses. -/
theorem illegalWordsCompleteWithCode9 : Obligations.IllegalWordsCompleteWithCode9 := by
  refine ⟨refused_decode_iff, fun s hbusy hnext hillegal => ?_⟩
  obtain ⟨why, hwhy⟩ := (refused_decode_iff _).2 hillegal
  have hturn : engineTurn s.advance = raise .illegalCommand s.advance := by
    simp [engineTurn, engineStep, hbusy, hwhy]
  exact (step_of_engineNext hnext).trans hturn

/-- Settles O4: thirty fixed words, which the decoder computes. -/
theorem decodeReadsSpecWords : Obligations.DecodeReadsSpecWords := by
  unfold Obligations.DecodeReadsSpecWords
  decide

end Sys2Proof

namespace Sys2Proof.Machine

/-! ## Tokens (R88) -/

/-- Reading a buffer name heeds no letter case. -/
theorem readBufName_congr {s t : String} (h : lower s = lower t) : readBufName s = readBufName t := by
  simp only [readBufName, h]

theorem readEncName_congr {s t : String} (h : lower s = lower t) : readEncName s = readEncName t := by
  simp only [readEncName, h]

/-- Reading a command heeds the tokens in lower case alone. -/
theorem readAsm_congr {tokens tokens' : List String} (h : tokens.map lower = tokens'.map lower) :
    readAsm tokens = readAsm tokens' := by
  have hpairs : List.Forall₂ (fun s t => lower s = lower t) tokens tokens' := by
    simpa [← List.forall₂_map_left_iff, ← List.forall₂_map_right_iff] using h
  rcases hpairs with _ | ⟨hm, _ | ⟨hx, _ | ⟨hy, _ | ⟨hz, _ | _⟩⟩⟩⟩
  · rfl
  · simp only [readAsm, hm]
  · simp only [readAsm, hm, readBufName_congr hx]
  · simp only [readAsm, hm, readBufName_congr hx, readBufName_congr hy]
  · simp only [readAsm, hm, readBufName_congr hx, readBufName_congr hy, readBufName_congr hz, readEncName_congr hz]
  · rfl

@[simp] theorem readBufName_bufName (b : BufNum) : readBufName (bufName b) = some b := by
  decide +revert

theorem readEncName_encName {e : Enc} (h : e.nameable = true) : readEncName (encName e) = some e := by
  cases e with
  | text => contradiction
  | _ => rfl

/-- No encoding is named as a buffer is, so that the last field of PARSE and CONVERT is read as an encoding. -/
@[simp] theorem readBufName_encName (e : Enc) : readBufName (encName e) = none := by
  cases e <;> rfl

theorem readAsm_asmTokens {i : Instr} (h : i.wellFormed = true) : readAsm (asmTokens i) = some i := by
  cases i with
  | parse d a e | convert d a e =>
    simp [asmTokens, operandNames, mnemonicOf, lower, readAsm, readCoded, readEncName_encName h]
  | _ =>
    simp [asmTokens, operandNames, mnemonicOf, lower, readAsm, readPlain, readOne, readTwo, readThree]

/-- Settles O5: reading heeds no letter case, and the tokens as R88 writes them read back. -/
theorem assemblerReadsWhatItWrites : Obligations.AssemblerReadsWhatItWrites :=
  fun _ _ hwf h => (readAsm_congr h).trans (readAsm_asmTokens hwf)

/-! ## LOAD (R89) -/

@[simp] theorem regAt_offsetOf (r : Reg) : regAt (offsetOf r) = r := by
  cases r <;> rfl

theorem run_succ_of_step {s t : State} (h : step s = .next t) (n : Nat) :
    Host.Core.run core (n + 1) s = Host.Core.run core n t := by
  have hcore : core.step s = .next t := h
  simp [Host.Core.run, hcore]

/-- A run of an idle block that begins with `WR r, v`. CTRL and STATUS, which take writes at any time, are not spoken
of. -/
theorem run_wr {s t : State} {r : Reg} {v : Word} {es : List Event} (hs : s.schedule = wr r v :: es)
    (hidle : s.busy = false) (hctrl : r ≠ .ctrl) (hstatus : r ≠ .status)
    (ht : writeIdle r v { s with schedule := es } = t) (n : Nat) :
    Host.Core.run core (n + 1) s = Host.Core.run core n t := by
  have hnext : s.writeNext (offsetOf r) v := by simp [State.writeNext, hs, wr]
  have hadv : s.advance = { s with schedule := es } := by simp [State.advance, hs]
  rw [← hadv] at ht
  exact run_succ_of_step (ht ▸ step_of_idleWrite hnext hidle (regAt_offsetOf r) hctrl hstatus) n

@[simp] theorem State.setBuf_setBuf (s : State) (b : BufNum) (x y : Buffer) :
    (s.setBuf b x).setBuf b y = s.setBuf b y := by
  simp [State.setBuf]

@[simp] theorem State.setBuf_buf (s : State) (b : BufNum) : s.setBuf b (s.buf b) = s := by
  simp [State.setBuf, State.buf, Vector.get_eq_getElem]

/-- The state after a string was written to BDATA, byte after byte from slot `k` of buffer `b` on, with the events `es`
still to come (R54). -/
def State.stored (s : State) (b : BufNum) (k : Nat) (q : List Byte) (es : List Event) : State :=
  { s.setBuf b { s.buf b with sym := (s.buf b).sym.writeSeq k q } with
    bidx := BitVec.ofNat 32 (k + q.length), schedule := es }

theorem State.stored_nil {s : State} {k : Nat} (b : BufNum) (hidx : s.bidx = BitVec.ofNat 32 k) :
    s.stored b k [] s.schedule = s := by
  have hbuf : { s.buf b with sym := (s.buf b).sym.writeSeq k [] } = s.buf b := rfl
  rw [State.stored, hbuf, s.setBuf_buf, List.length_nil, Nat.add_zero, ← hidx]

theorem State.buf_stored_same (s : State) (b : BufNum) (k : Nat) (q : List Byte) (es : List Event) :
    (s.stored b k q es).buf b = { s.buf b with sym := (s.buf b).sym.writeSeq k q } :=
  State.buf_setBuf_same ..

/-- Storing byte after byte stores the string. -/
theorem State.stored_stored (s : State) (b : BufNum) (k : Nat) (v : Byte) (q : List Byte) (es es' : List Event) :
    (s.stored b k [v] es).stored b (k + 1) q es' = s.stored b k (v :: q) es' := by
  have hnext : k + 1 + q.length = k + (v :: q).length := by simp [Nat.add_assoc, Nat.add_comm]
  rw [State.stored, State.buf_stored_same, hnext]
  simp [State.stored, State.setBuf, Memory.writeSeq]

/-- A number up to CAP fits a register (R5). -/
theorem toNat_ofNat_of_le_cap {n : Nat} (h : n ≤ Config.cap) : (BitVec.ofNat 32 n).toNat = n := by
  have := Config.cap_le
  rw [BitVec.toNat_ofNat]
  exact Nat.mod_eq_of_lt (by omega)

/-- R54: one byte of a string, at a slot below CAP of a RAW or TEXT buffer. -/
theorem writeBdata_byte {s : State} {k : Nat} (hidx : s.bidx = BitVec.ofNat 32 k) (hk : k < Config.cap)
    (hw : (s.buf s.selected).hostWritable = true) (v : Byte) :
    writeBdata (v.setWidth 32) s = s.stored s.selected k [v] s.schedule := by
  have hslot : s.bidx.toNat = k := by rw [hidx, toNat_ofNat_of_le_cap (Nat.le_of_lt hk)]
  have hnext : s.bidx + 1 = BitVec.ofNat 32 (k + 1) := by rw [hidx, BitVec.ofNat_add]; rfl
  have hbyte : BitVec.ofNat 8 (v.setWidth 32).toNat = v := by
    rw [BitVec.ofNat_toNat, BitVec.setWidth_setWidth_of_le v (by decide), BitVec.setWidth_eq]
  rw [writeBdata_stored (by rwa [hslot]) hw, hslot, hnext, hbyte]
  rfl

/-- The writes of a string to BDATA, where the buffer has room for it (R54). -/
theorem run_wr_bdata {s : State} {b : BufNum} {k : Nat} {q : List Byte} {es : List Event} (hidle : s.busy = false)
    (hb : s.selected = b) (hw : (s.buf b).hostWritable = true) (hidx : s.bidx = BitVec.ofNat 32 k)
    (hcap : k + q.length ≤ Config.cap)
    (hs : s.schedule = q.map (fun v => wr .bdata (v.setWidth 32)) ++ es) (n : Nat) :
    Host.Core.run core (q.length + n) s = Host.Core.run core n (s.stored b k q es) := by
  induction q generalizing s k with
  | nil =>
    obtain rfl : s.schedule = es := hs
    rw [State.stored_nil b hidx, List.length_nil, Nat.zero_add]
  | cons v q ih =>
    subst hb
    let es' := q.map (fun v => wr .bdata (v.setWidth 32)) ++ es
    rw [List.length_cons] at hcap
    have hfirst := run_wr (t := s.stored s.selected k [v] es') hs hidle nofun nofun
      (writeBdata_byte (s := { s with schedule := es' }) hidx (by omega) hw v) (q.length + n)
    have hw' : ((s.stored s.selected k [v] es').buf s.selected).hostWritable = true := by
      rw [State.buf_stored_same]
      exact hw
    have hrest := ih (s := s.stored s.selected k [v] es') (k := k + 1) hidle rfl hw' rfl (by omega) rfl
    rw [State.stored_stored] at hrest
    rw [List.length_cons, Nat.add_right_comm]
    exact hfirst.trans hrest

/-- BENC takes either tag of LOAD (R56). -/
theorem writeBenc_tag {tag : Enc} (htag : tag = .raw ∨ tag = .text) (s : State) :
    writeBenc (tag.code.setWidth 32) s = s.setBuf s.selected { s.buf s.selected with enc := tag } := by
  rcases htag with rfl | rfl <;> rfl

/-- `BufWrite` (R8) writes its buffer, and nothing else of the buffers. -/
theorem bufferWritten_bufWrite (s : State) (d : BufNum) (e : Enc) (q : List Byte) :
    BufferWritten s (s.bufWrite d e q) d e q where
  enc := by simp
  len := by simp
  written i hi := by simp [State.slot_bufWrite, hi]
  above i hi := by simp [State.slot_bufWrite, Nat.not_lt_of_le hi]
  other b hb := by simp [hb]

/-- The state after the first three writes of LOAD, with the events `es` still to come: the buffer is selected and has
its tag, and BIDX is 0. -/
def State.loadReady (s : State) (b : BufNum) (tag : Enc) (es : List Event) : State :=
  { s.setBuf b { s.buf b with enc := tag } with bsel := bufField b, bidx := 0, schedule := es }

theorem State.buf_loadReady_same (s : State) (b : BufNum) (tag : Enc) (es : List Event) :
    (s.loadReady b tag es).buf b = { s.buf b with enc := tag } :=
  State.buf_setBuf_same ..

theorem extractLsb'_ofNat_bufField (b : BufNum) : (BitVec.ofNat 32 b.val).extractLsb' 0 3 = bufField b := by
  decide +revert

theorem run_loadReady {s : State} {b : BufNum} {tag : Enc} {es : List Event} (hidle : s.busy = false)
    (htag : tag = .raw ∨ tag = .text)
    (hs : s.schedule = wr .bsel (BitVec.ofNat 32 b.val) :: wr .benc (tag.code.setWidth 32) :: wr .bidx 0 :: es)
    (n : Nat) : Host.Core.run core (n + 3) s = Host.Core.run core n (s.loadReady b tag es) := by
  let s₁ : State := { s with bsel := bufField b, schedule := wr .benc (tag.code.setWidth 32) :: wr .bidx 0 :: es }
  let s₂ : State := { s₁ with schedule := wr .bidx 0 :: es }
  have hsel : s₂.selected = b := bufNum_bufField b
  have hbsel := run_wr (t := s₁) hs hidle nofun nofun (by simp [writeIdle, extractLsb'_ofNat_bufField, s₁]) (n + 2)
  have hbenc := run_wr (s := s₁) rfl hidle nofun nofun (writeBenc_tag htag s₂) (n + 1)
  rw [hsel] at hbenc
  have hbidx := run_wr (s := s₂.setBuf b { s₂.buf b with enc := tag }) rfl hidle nofun nofun rfl n
  exact hbsel.trans (hbenc.trans hbidx)

/-- The write of a length that fits to BLEN, as the last event (R55). -/
theorem run_wr_blen {s : State} {b : BufNum} {n : Nat} (hidle : s.busy = false) (hb : s.selected = b)
    (hw : (s.buf b).hostWritable = true) (hcap : n ≤ Config.cap) (hs : s.schedule = [wr .blen (BitVec.ofNat 32 n)]) :
    Host.Core.run core 1 s = .next (State.setBuf { s with schedule := [] } b { s.buf b with len := n }) := by
  subst hb
  have hlen : (BitVec.ofNat 32 n).toNat = n := toNat_ofNat_of_le_cap hcap
  have hstored := writeBlen_stored (s := { s with schedule := [] }) (by rwa [hlen]) hw
  rw [hlen] at hstored
  exact run_wr hs hidle nofun nofun hstored 0

/-- LOAD does `BufWrite`, and leaves BSEL and BIDX as its last writes set them. -/
theorem run_scriptLoad {s : State} {b : BufNum} {tag : Enc} {q : List Byte} (hidle : s.busy = false)
    (htag : tag = .raw ∨ tag = .text) (hcap : q.length ≤ Config.cap) (hs : s.schedule = scriptLoad b tag q) :
    Host.Core.run core (q.length + 4) s = .next { s.bufWrite b tag q with
      schedule := [], bsel := BitVec.ofNat 3 b.val, bidx := BitVec.ofNat 32 q.length } := by
  let es := [wr .blen (BitVec.ofNat 32 q.length)]
  let s₁ := s.loadReady b tag (q.map (fun v => wr .bdata (v.setWidth 32)) ++ es)
  let s₂ := s₁.stored b 0 q es
  have hsel : s₁.selected = b := bufNum_bufField b
  have hbuf₁ : s₁.buf b = { s.buf b with enc := tag } := s.buf_loadReady_same ..
  have hbuf₂ : s₂.buf b = { s.buf b with enc := tag, sym := (s.buf b).sym.writeSeq 0 q } := by
    rw [s₁.buf_stored_same, hbuf₁]
  have hw : ∀ x : Buffer, x.enc = tag → x.hostWritable = true := fun x hx =>
    x.hostWritable_iff.2 (hx ▸ htag)
  have hready := run_loadReady hidle htag hs (q.length + 1)
  have hbytes := run_wr_bdata (s := s₁) (k := 0) hidle hsel (hw _ (by rw [hbuf₁])) rfl (by omega) rfl 1
  have hblen := run_wr_blen (s := s₂) hidle hsel (hw _ (by rw [hbuf₂])) hcap rfl
  rw [hbuf₂] at hblen
  refine (hready.trans (hbytes.trans hblen)).trans (congrArg _ ?_)
  simp [s₂, s₁, State.stored, State.loadReady, State.bufWrite, State.setBuf, bufField]

/-- Settles O21: LOAD does `BufWrite` of the string. -/
theorem loadScriptFillsBuffer : Obligations.LoadScriptFillsBuffer := by
  intro s b tag q hidle htag hcap hs
  exact ⟨_, run_scriptLoad hidle htag hcap hs, rfl, { bufferWritten_bufWrite s b tag q with }, rfl⟩

end Sys2Proof.Machine
end

section
/-! Proofs of the family 40_storage: PARSE, RENDER, CONVERT and SLICE command by command, the alphabets (R91), and the
conversions of R93: what they refuse, how long their results are, and that the way back gives the value. -/

namespace Sys2Proof.Machine

/-! ## What a command leaves behind (R8, R182) -/

theorem raise_withDraws (c : Code) (s : State) (n : Nat) : raise c (s.withDraws n) = .next (s.failed c.num n) := rfl

/-- A refusal before any operand is read. -/
theorem raise_eq_failed (c : Code) (s : State) : raise c s = .next (s.failed c.num s.draws) := rfl

/-- `BufWrite` and the completion write the buffer and nothing else. -/
theorem wroteBuffer_bufWrite (s : State) (d : BufNum) (e : Enc) (q : List Byte) (n : Nat) :
    WroteBuffer s (((s.withDraws n).bufWrite d e q).complete .none) d e q n where
  completed := ⟨rfl, rfl, rfl, ⟨rfl, rfl, rfl, rfl, rfl, rfl, rfl, rfl, rfl, rfl⟩⟩
  buffer := { bufferWritten_bufWrite (s.withDraws n) d e q with }
  st := rfl
  keys := ⟨rfl, rfl⟩
  result := rfl
  draws := rfl

theorem ne_text_of_nameable {e : Enc} (h : e.nameable = true) : e ≠ .text := by
  rintro rfl
  contradiction

theorem Buffer.isStorage_iff (b : Buffer) : b.isStorage = true ↔ b.enc ≠ .text := by
  simp [Buffer.isStorage]

theorem Buffer.isStorage_eq_false_iff (b : Buffer) : b.isStorage = false ↔ b.enc = .text := by
  simp [Buffer.isStorage]

theorem Buffer.isText_iff (b : Buffer) : b.isText = true ↔ b.enc = .text := by
  simp [Buffer.isText]

theorem Buffer.isText_eq_false_iff (b : Buffer) : b.isText = false ↔ b.enc ≠ .text := by
  simp [Buffer.isText]

theorem State.Reads.withSyms {s : State} {b : BufNum} {q : List Byte} {n : Nat} (h : s.Reads b s.draws q n)
    (mnemonic : String) (k : List Byte → State → Result) :
    Machine.withSyms mnemonic b s k = k q (s.withDraws n) := withSyms_ok h

/-! ## PARSE (R92) -/

theorem parseSyms_cons (e : Enc) (c : Byte) (t : List Byte) :
    parseSyms e (c :: t) = (charToSym e c).bind fun v => (parseSyms e t).map (v :: ·) := by
  rw [parseSyms]
  cases charToSym e c <;> cases parseSyms e t <;> rfl

/-- PARSE's loop goes through with the symbol of each character. -/
theorem parseSyms_eq_some_iff {e : Enc} {t q : List Byte} :
    parseSyms e t = some q ↔ t.map (charToSym e) = q.map some := by
  induction t generalizing q with
  | nil => cases q <;> simp [parseSyms]
  | cons c t ih => cases q <;> simp [parseSyms_cons, Option.bind_eq_some_iff, ih, and_comm]

/-- PARSE's loop stops where some character is outside the alphabet. -/
theorem parseSyms_eq_none {e : Enc} {t : List Byte} (h : ∃ c, c ∈ t ∧ charToSym e c = none) :
    parseSyms e t = none := by
  obtain ⟨c, hc, hnone⟩ := h
  refine Option.eq_none_iff_forall_ne_some.2 fun q hq => ?_
  have hmem : none ∈ q.map some := parseSyms_eq_some_iff.1 hq ▸ List.mem_map.2 ⟨c, hc, hnone⟩
  simp at hmem

section Parse

variable {d a : BufNum} {e : Enc} {s : State} {t q : List Byte} {n : Nat}

theorem exec_parse_of_ne_text (he : e.nameable = true) (henc : (s.buf a).enc ≠ .text) :
    exec (.parse d a e) s = .next (s.failed 3 s.draws) := by
  have htext := (s.buf a).isText_eq_false_iff.2 henc
  simp only [exec, execParse, he, htext]
  exact raise_eq_failed .encodingMismatch s

theorem exec_parse_invalid (he : e.nameable = true) (henc : (s.buf a).enc = .text) (hr : s.Reads a s.draws t n)
    (hp : parseSyms e t = none) : exec (.parse d a e) s = .next (s.failed 1 n) := by
  have htext := (s.buf a).isText_iff.2 henc
  simp only [exec, execParse, he, htext, hr.withSyms, hp]
  exact raise_withDraws .invalidSymbol s n

theorem exec_parse_parsed (he : e.nameable = true) (henc : (s.buf a).enc = .text) (hr : s.Reads a s.draws t n)
    (hp : parseSyms e t = some q) :
    exec (.parse d a e) s = .next (((s.withDraws n).bufWrite d e q).complete .none) := by
  have htext := (s.buf a).isText_iff.2 henc
  simp only [exec, execParse, he, htext, hr.withSyms, hp]
  exact succeed_eq _

end Parse

/-- Settles O35: `parseSyms` is `charToSym` on every character, or stops. -/
theorem parseMapsCharacters : Obligations.ParseMapsCharacters := by
  intro d a e s he
  refine ⟨exec_parse_of_ne_text he, fun henc t n hr => ⟨fun hinvalid => ?_, fun q hq => ?_⟩⟩
  · exact exec_parse_invalid he henc hr (parseSyms_eq_none hinvalid)
  · exact ⟨_, exec_parse_parsed he henc hr (parseSyms_eq_some_iff.2 hq), wroteBuffer_bufWrite s d e q n⟩

/-! ## RENDER (R97) -/

section Render

variable {d a : BufNum} {s : State} {q : List Byte} {n : Nat}

theorem exec_render_of_text (henc : (s.buf a).enc = .text) :
    exec (.render d a) s = .next (s.failed 3 s.draws) := by
  have hstorage := (s.buf a).isStorage_eq_false_iff.2 henc
  simp only [exec, execRender, hstorage]
  exact raise_eq_failed .encodingMismatch s

theorem exec_render_rendered (henc : (s.buf a).enc ≠ .text) (hr : s.Reads a s.draws q n) :
    exec (.render d a) s
      = .next (((s.withDraws n).bufWrite d .text (q.map (symToChar (s.buf a).enc))).complete .none) := by
  have hstorage := (s.buf a).isStorage_iff.2 henc
  simp only [exec, execRender, hstorage, hr.withSyms]
  exact succeed_eq _

end Render

/-- Settles O36. -/
theorem renderMapsSymbols : Obligations.RenderMapsSymbols := fun d _ s =>
  ⟨exec_render_of_text, fun henc _ n hr => ⟨_, exec_render_rendered henc hr, wroteBuffer_bufWrite s d .text _ n⟩⟩

/-! ## SLICE (R98) -/

section Slice

variable {d a : BufNum} {s : State} {q : List Byte} {n : Nat}

theorem exec_slice_of_text (henc : (s.buf a).enc = .text) :
    exec (.slice d a) s = .next (s.failed 3 s.draws) := by
  have hstorage := (s.buf a).isStorage_eq_false_iff.2 henc
  simp only [exec, execSlice, hstorage]
  exact raise_eq_failed .encodingMismatch s

theorem exec_slice_out_of_range (henc : (s.buf a).enc ≠ .text)
    (hbounds : s.arg1.toNat < s.arg0.toNat ∨ (s.buf a).len < s.arg0.toNat ∨ (s.buf a).len < s.arg1.toNat) :
    exec (.slice d a) s = .next (s.failed 6 s.draws) := by
  have hstorage := (s.buf a).isStorage_iff.2 henc
  have hout : s.arg0Nat > s.arg1Nat ∨ s.arg0Nat > (s.buf a).len ∨ s.arg1Nat > (s.buf a).len := hbounds
  simp only [exec, execSlice, hstorage, if_pos hout]
  exact raise_eq_failed .indexOutOfRange s

theorem exec_slice_copied (henc : (s.buf a).enc ≠ .text) (hstart : s.arg0.toNat ≤ s.arg1.toNat)
    (hend : s.arg1.toNat ≤ (s.buf a).len) (hr : s.Reads a s.draws q n) :
    exec (.slice d a) s = .next (((s.withDraws n).bufWrite d (s.buf a).enc
      ((q.drop s.arg0.toNat).take (s.arg1.toNat - s.arg0.toNat))).complete .none) := by
  have hstorage := (s.buf a).isStorage_iff.2 henc
  have hin : ¬(s.arg0Nat > s.arg1Nat ∨ s.arg0Nat > (s.buf a).len ∨ s.arg1Nat > (s.buf a).len) := by
    simp only [State.arg0Nat, State.arg1Nat]
    omega
  simp only [exec, execSlice, hstorage, if_neg hin, hr.withSyms, ← List.drop_take]
  exact succeed_eq _

end Slice

/-- Settles O42. -/
theorem sliceCopiesRange : Obligations.SliceCopiesRange := by
  intro d a s
  refine ⟨exec_slice_of_text, fun henc => ⟨exec_slice_out_of_range henc, fun hstart hend q n hr => ?_⟩⟩
  exact ⟨_, exec_slice_copied henc hstart hend hr, wroteBuffer_bufWrite s d _ _ n⟩

/-! ## CONVERT (R93) -/

section Convert

variable {d a : BufNum} {e : Enc} {s : State} {q r : List Byte} {n : Nat}

theorem exec_convert_of_text (he : e.nameable = true) (henc : (s.buf a).enc = .text) :
    exec (.convert d a e) s = .next (s.failed 3 s.draws) := by
  have hstorage := (s.buf a).isStorage_eq_false_iff.2 henc
  simp only [exec, execConvert, he, hstorage]
  exact raise_eq_failed .encodingMismatch s

theorem exec_convert_refused (he : e.nameable = true) (henc : (s.buf a).enc ≠ .text) (hr : s.Reads a s.draws q n)
    {c : Code} (hp : pack (s.buf a).enc e q = .error c) : exec (.convert d a e) s = .next (s.failed c.num n) := by
  have hstorage := (s.buf a).isStorage_iff.2 henc
  simp only [exec, execConvert, he, hstorage, hr.withSyms, State.withDraws_buf, hp]
  exact raise_withDraws c s n

theorem exec_convert_overflow (he : e.nameable = true) (henc : (s.buf a).enc ≠ .text) (hr : s.Reads a s.draws q n)
    (hp : pack (s.buf a).enc e q = .ok r) (hcap : Config.cap < r.length) :
    exec (.convert d a e) s = .next (s.failed 10 n) := by
  have hstorage := (s.buf a).isStorage_iff.2 henc
  simp only [exec, execConvert, he, hstorage, hr.withSyms, State.withDraws_buf, hp, if_pos hcap]
  exact raise_withDraws .capacityExceeded s n

theorem exec_convert_packed (he : e.nameable = true) (henc : (s.buf a).enc ≠ .text) (hr : s.Reads a s.draws q n)
    (hp : pack (s.buf a).enc e q = .ok r) (hcap : r.length ≤ Config.cap) :
    exec (.convert d a e) s = .next (((s.withDraws n).bufWrite d e r).complete .none) := by
  have hstorage := (s.buf a).isStorage_iff.2 henc
  simp only [exec, execConvert, he, hstorage, hr.withSyms, State.withDraws_buf, hp, if_neg (Nat.not_lt_of_le hcap)]
  exact succeed_eq _

end Convert

/-! ## The alphabets (R91), row by row -/

section Rows

variable {c v : Byte}

theorem charToSym_hex_digit (h : 0x30 ≤ c.toNat ∧ c.toNat ≤ 0x39) : charToSym .hex c = some (c - 0x30) :=
  if_pos ((inRange_iff ..).2 h)

theorem charToSym_hex_capital (h : 0x41 ≤ c.toNat ∧ c.toNat ≤ 0x46) : charToSym .hex c = some (c - 0x37) := by
  simp only [charToSym, inRange_iff]
  rw [if_neg (by omega), if_pos h]

theorem charToSym_hex_small (h : 0x61 ≤ c.toNat ∧ c.toNat ≤ 0x66) : charToSym .hex c = some (c - 0x57) := by
  simp only [charToSym, inRange_iff]
  rw [if_neg (by omega), if_neg (by omega), if_pos h]

theorem charToSym_hex_invalid (h : c.toNat < 0x30 ∨ (0x39 < c.toNat ∧ c.toNat < 0x41) ∨
    (0x46 < c.toNat ∧ c.toNat < 0x61) ∨ 0x66 < c.toNat) : charToSym .hex c = none := by
  simp only [charToSym, inRange_iff]
  rw [if_neg (by omega), if_neg (by omega), if_neg (by omega)]

theorem charToSym_b64_capital (h : 0x41 ≤ c.toNat ∧ c.toNat ≤ 0x5A) : charToSym .b64 c = some (c - 0x41) :=
  if_pos ((inRange_iff ..).2 h)

theorem charToSym_b64_small (h : 0x61 ≤ c.toNat ∧ c.toNat ≤ 0x7A) : charToSym .b64 c = some (c - 0x47) := by
  simp only [charToSym, inRange_iff]
  rw [if_neg (by omega), if_pos h]

theorem charToSym_b64_digit (h : 0x30 ≤ c.toNat ∧ c.toNat ≤ 0x39) : charToSym .b64 c = some (c + 0x04) := by
  simp only [charToSym, inRange_iff]
  rw [if_neg (by omega), if_neg (by omega), if_pos h]

theorem charToSym_b64_plus (h : c.toNat = 0x2B) : charToSym .b64 c = some 62 := by
  obtain rfl : c = 0x2B := BitVec.eq_of_toNat_eq h
  rfl

theorem charToSym_b64_slash (h : c.toNat = 0x2F) : charToSym .b64 c = some 63 := by
  obtain rfl : c = 0x2F := BitVec.eq_of_toNat_eq h
  rfl

theorem charToSym_b64_equals (h : c.toNat = 0x3D) : charToSym .b64 c = some 255 := by
  obtain rfl : c = 0x3D := BitVec.eq_of_toNat_eq h
  rfl

theorem charToSym_b64_invalid (h : c.toNat < 0x2B ∨ (0x2B < c.toNat ∧ c.toNat < 0x2F) ∨
    (0x39 < c.toNat ∧ c.toNat < 0x3D) ∨ (0x3D < c.toNat ∧ c.toNat < 0x41) ∨ (0x5A < c.toNat ∧ c.toNat < 0x61) ∨
    0x7A < c.toNat) : charToSym .b64 c = none := by
  simp only [charToSym, inRange_iff]
  rw [if_neg (by omega), if_neg (by omega), if_neg (by omega), if_neg (by bv_omega), if_neg (by bv_omega),
    if_neg (by bv_omega)]

theorem symToChar_hex_digit (h : v.toNat ≤ 9) : symToChar .hex v = 0x30 + v :=
  if_pos ((inRange_iff ..).2 ⟨Nat.zero_le _, h⟩)

theorem symToChar_hex_letter (h : 10 ≤ v.toNat ∧ v.toNat ≤ 15) : symToChar .hex v = 0x57 + v := by
  simp only [symToChar, inRange_iff]
  rw [if_neg (by omega), if_pos h]

theorem symToChar_b64_capital (h : v.toNat ≤ 25) : symToChar .b64 v = v + 0x41 :=
  if_pos ((inRange_iff ..).2 ⟨Nat.zero_le _, h⟩)

theorem symToChar_b64_small (h : 26 ≤ v.toNat ∧ v.toNat ≤ 51) : symToChar .b64 v = v + 0x47 := by
  simp only [symToChar, inRange_iff]
  rw [if_neg (by omega), if_pos h]

theorem symToChar_b64_digit (h : 52 ≤ v.toNat ∧ v.toNat ≤ 61) : symToChar .b64 v = v - 0x04 := by
  simp only [symToChar, inRange_iff]
  rw [if_neg (by omega), if_neg (by omega), if_pos h]

end Rows

/-! ## Rendering is the inverse of parsing (R91) -/

theorem symToChar_b64_of_charToSym {c v : Byte} (h : charToSym .b64 c = some v) : symToChar .b64 v = c := by
  simp only [charToSym, inRange_iff] at h
  split_ifs at h with hcapital hsmall hdigit hplus hslash hequals <;> obtain rfl := Option.some.inj h
  · rw [symToChar_b64_capital (by bv_omega), BitVec.sub_add_cancel]
  · rw [symToChar_b64_small (by bv_omega), BitVec.sub_add_cancel]
  · rw [symToChar_b64_digit (by bv_omega), BitVec.add_sub_cancel]
  · exact hplus.symm
  · exact hslash.symm
  · exact hequals.symm

/-- A HEX digit renders in lower case, whichever case it was parsed from. -/
theorem symToChar_hex_of_charToSym {c v : Byte} (h : charToSym .hex c = some v) :
    symToChar .hex v = if c.toNat < 0x47 ∧ 0x40 < c.toNat then c + 0x20 else c := by
  simp only [charToSym, inRange_iff] at h
  split_ifs at h with hdigit hcapital hsmall <;> obtain rfl := Option.some.inj h
  · rw [symToChar_hex_digit (by bv_omega), if_neg (by omega)]
    bv_omega
  · rw [symToChar_hex_letter (by bv_omega), if_pos (by omega)]
    bv_omega
  · rw [symToChar_hex_letter (by bv_omega), if_neg (by omega)]
    bv_omega

theorem charToSym_symToChar_hex {v : Byte} (h : v.toNat ≤ 15) : charToSym .hex (symToChar .hex v) = some v := by
  rcases Nat.lt_or_ge 9 v.toNat with hletter | hdigit
  · rw [symToChar_hex_letter ⟨hletter, h⟩, charToSym_hex_small (by bv_omega)]
    exact congrArg some (by bv_omega)
  · rw [symToChar_hex_digit hdigit, charToSym_hex_digit (by bv_omega)]
    exact congrArg some (by bv_omega)

theorem charToSym_symToChar_sextet {v : Byte} (h : v.toNat ≤ 63) : charToSym .b64 (symToChar .b64 v) = some v := by
  obtain hcapital | hsmall | hdigit | hplus | hslash : v.toNat ≤ 25 ∨ (26 ≤ v.toNat ∧ v.toNat ≤ 51) ∨
      (52 ≤ v.toNat ∧ v.toNat ≤ 61) ∨ v = 62 ∨ v = 63 := by bv_omega
  · rw [symToChar_b64_capital hcapital, charToSym_b64_capital (by bv_omega), BitVec.add_sub_cancel]
  · rw [symToChar_b64_small hsmall, charToSym_b64_small (by bv_omega), BitVec.add_sub_cancel]
  · rw [symToChar_b64_digit hdigit, charToSym_b64_digit (by bv_omega), BitVec.sub_add_cancel]
  · subst hplus; rfl
  · subst hslash; rfl

theorem charToSym_symToChar {e : Enc} {v : Byte} (he : e.nameable = true) (h : validSym e v = true) :
    charToSym e (symToChar e v) = some v := by
  cases e with
  | hex => exact charToSym_symToChar_hex ((validSym_hex_iff v).1 h)
  | b64 =>
    rcases (validSym_b64_iff v).1 h with hsextet | rfl
    · exact charToSym_symToChar_sextet hsextet
    · rfl
  | raw => rfl
  | text => contradiction

/-- TEXT names no alphabet (R91). -/
theorem nameable_of_charToSym {e : Enc} {c v : Byte} (h : charToSym e c = some v) : e.nameable = true := by
  cases e with
  | text => contradiction
  | _ => rfl

/-- Settles O37, by the rows of the table. -/
theorem alphabetsAreInverse : Obligations.AlphabetsAreInverse := by
  refine ⟨fun c => ?hexRows, fun c => ?b64Rows, fun _ => ⟨rfl, rfl⟩,
    fun _ => ⟨symToChar_hex_digit, symToChar_hex_letter⟩, fun _ _ => symToChar_b64_of_charToSym,
    fun _ _ => symToChar_hex_of_charToSym, fun _ _ => charToSym_symToChar,
    fun _ _ _ h => ⟨nameable_of_charToSym h, validSym_of_charToSym h⟩⟩
  case hexRows => exact ⟨charToSym_hex_digit, charToSym_hex_capital, charToSym_hex_small, charToSym_hex_invalid⟩
  case b64Rows =>
    exact ⟨charToSym_b64_capital, charToSym_b64_small, charToSym_b64_digit, charToSym_b64_plus, charToSym_b64_slash,
      charToSym_b64_equals, charToSym_b64_invalid⟩

/-! ## The lengths of the groups (R93) -/

theorem length_groupsHexB64 : (q : List Byte) → (groupsHexB64 q).length = 2 * (q.length / 3)
  | [] | [_] | [_, _] => by simp [groupsHexB64]
  | _ :: _ :: _ :: q => by
    simp only [groupsHexB64, List.length_cons, length_groupsHexB64 q]
    omega

theorem length_groupsB64Hex : (q : List Byte) → (groupsB64Hex q).length = 3 * (q.length / 2)
  | [] | [_] => by simp [groupsB64Hex]
  | _ :: _ :: q => by
    simp only [groupsB64Hex, List.length_cons, length_groupsB64Hex q]
    omega

theorem length_groupsHexRaw : (q : List Byte) → (groupsHexRaw q).length = q.length / 2
  | [] | [_] => by simp [groupsHexRaw]
  | _ :: _ :: q => by
    simp only [groupsHexRaw, List.length_cons, length_groupsHexRaw q]
    omega

theorem length_groupsRawHex : (q : List Byte) → (groupsRawHex q).length = 2 * q.length
  | [] => rfl
  | _ :: q => by
    simp only [groupsRawHex, List.length_cons, length_groupsRawHex q]
    omega

theorem length_groupsRawB64 : (q : List Byte) → (groupsRawB64 q).length = 4 * ((q.length + 2) / 3)
  | [] | [_] | [_, _] => by simp [groupsRawB64]
  | _ :: _ :: _ :: q => by
    simp only [groupsRawB64, List.length_cons, length_groupsRawB64 q]
    omega

/-! ## B64 to RAW: the last group decides (R96) -/

/-- The last data sextet has pad bits that are not zero: `c` before one sentinel, `b` before two (R96). -/
def PadBitsSet (p : Nat) (b c : Byte) : Prop := (p = 1 ∧ c.toNat % 4 ≠ 0) ∨ (p = 2 ∧ b.toNat % 16 ≠ 0)

/-- The low bits of a group are those of its last sextet. -/
theorem extractLsb'_append_sextet_eq_zero_iff {w : Nat} (x : BitVec w) (v : Byte) {n : Nat} (hn : n ≤ 6) :
    (x ++ sextet v).extractLsb' 0 n = 0 ↔ v.toNat % 2 ^ n = 0 := by
  have hlow : (x ++ sextet v).extractLsb' 0 n = v.extractLsb' 0 n := by
    refine BitVec.eq_of_getLsbD_eq fun i hi => ?_
    simp [sextet, BitVec.getLsbD_append, hi, show i < 6 by omega]
  rw [hlow, ← BitVec.toNat_inj]
  simp

theorem lastGroupB64Raw_of_padBitsSet {p : Nat} {b c : Byte} (h : PadBitsSet p b c) (a d : Byte) :
    lastGroupB64Raw p a b c d = .error .paddingOperand := by
  rcases h with ⟨rfl, hc⟩ | ⟨rfl, hb⟩
  · exact if_pos (mt (extractLsb'_append_sextet_eq_zero_iff (sextet a ++ sextet b) c (n := 2) (by decide)).1 hc)
  · exact if_pos (mt (extractLsb'_append_sextet_eq_zero_iff (sextet a) b (n := 4) (by decide)).1 hb)

/-- Each sentinel of the last group is one byte less (R96). -/
theorem lastGroupB64Raw_of_not_padBitsSet {p : Nat} (hp : p ≤ 2) {b c : Byte} (h : ¬PadBitsSet p b c) (a d : Byte) :
    ∃ r, lastGroupB64Raw p a b c d = .ok r ∧ r.length + p = 3 := by
  simp only [PadBitsSet, not_or, not_and, not_not] at h
  obtain ⟨hc, hb⟩ := h
  match p with
  | 0 => exact ⟨_, rfl, rfl⟩
  | 1 =>
    have hzero := (extractLsb'_append_sextet_eq_zero_iff (sextet a ++ sextet b) c (n := 2) (by decide)).2 (hc rfl)
    exact ⟨_, if_neg (not_not.2 hzero), rfl⟩
  | 2 =>
    have hzero := (extractLsb'_append_sextet_eq_zero_iff (sextet a) b (n := 4) (by decide)).2 (hb rfl)
    exact ⟨_, if_neg (not_not.2 hzero), rfl⟩

/-- Every group but the last is three bytes (R96). -/
theorem groupsB64Raw_cons {p : Nat} {q : List Byte} (hq : q ≠ []) (a b c d : Byte) :
    groupsB64Raw p (a :: b :: c :: d :: q) = (groupsB64Raw p q).map (groupB64Raw a b c d ++ ·) := by
  rw [groupsB64Raw]
  · cases groupsB64Raw p q <;> rfl
  · exact hq

/-- Whole groups come before the last one (R96). -/
theorem groupsB64Raw_append (p : Nat) (a b c d : Byte) : (q : List Byte) → q.length % 4 = 0 →
    ∃ r, r.length = 3 * (q.length / 4) ∧
      groupsB64Raw p (q ++ [a, b, c, d]) = (lastGroupB64Raw p a b c d).map (r ++ ·)
  | [], _ => ⟨[], rfl, by cases h : lastGroupB64Raw p a b c d <;> simp [groupsB64Raw, h, Except.map]⟩
  | [_], h => nomatch h
  | [_, _], h => nomatch h
  | [_, _, _], h => nomatch h
  | x :: y :: z :: w :: q, h => by
    simp only [List.length_cons] at h
    obtain ⟨r, hlen, hr⟩ := groupsB64Raw_append p a b c d q (by omega)
    refine ⟨groupB64Raw x y z w ++ r, ?_, ?_⟩
    · simp only [List.length_append, length_groupB64Raw, List.length_cons, hlen]
      omega
    · rw [List.cons_append, List.cons_append, List.cons_append, List.cons_append, groupsB64Raw_cons (by simp), hr]
      cases lastGroupB64Raw p a b c d <;> simp [Except.map]

theorem exists_append_last_four {q : List Byte} (h : 4 ≤ q.length) : ∃ l a b c d, q = l ++ [a, b, c, d] := by
  obtain ⟨a, b, c, d, hlast⟩ := List.length_eq_four.1 (show (q.drop (q.length - 4)).length = 4 by
    rw [List.length_drop]; omega)
  exact ⟨q.take (q.length - 4), a, b, c, d, by rw [← hlast, List.take_append_drop]⟩

/-! ## B64 to RAW: what is refused with PaddingOperand (R96) -/

theorem sentinelCount_eq (q : List Byte) : sentinelCount q = trailingPad q := by
  by_cases h : 4 ≤ q.length
  · have hlast : q[q.length - 1]? = some 255 ↔ q.getD (q.length - 1) 0 = 255 := by
      simp [List.getD_eq_getElem?_getD, show q.length - 1 < q.length by omega]
    have hsecond : q[q.length - 2]? = some 255 ↔ q.getD (q.length - 2) 0 = 255 := by
      simp [List.getD_eq_getElem?_getD, show q.length - 2 < q.length by omega]
    simp only [sentinelCount, trailingPad, hlast, hsecond, and_comm]
  · simp [sentinelCount, trailingPad, h]

theorem mem_take_iff_getElem? (v : Byte) (q : List Byte) (n : Nat) : v ∈ q.take n ↔ ∃ i, i < n ∧ q[i]? = some v := by
  simp [List.mem_iff_getElem?, List.getElem?_take]

theorem paddingRefused_b64_raw_iff (q : List Byte) :
    paddingRefused .b64 .raw q ↔ 255 ∈ q.take (q.length - trailingPad q) ∨
      PadBitsSet (trailingPad q) (q.getD (q.length - 3) 0) (q.getD (q.length - 2) 0) := by
  simp only [paddingRefused, sentinelCount_eq, PadBitsSet, mem_take_iff_getElem?]

theorem groupsB64Raw_of_padBitsSet {p : Nat} {q : List Byte} (hlen : q.length % 4 = 0) (hq : 4 ≤ q.length)
    (h : PadBitsSet p (q.getD (q.length - 3) 0) (q.getD (q.length - 2) 0)) :
    groupsB64Raw p q = .error .paddingOperand := by
  obtain ⟨l, a, b, c, d, rfl⟩ := exists_append_last_four hq
  obtain ⟨r, -, hr⟩ := groupsB64Raw_append p a b c d l (by simpa using hlen)
  rw [hr, lastGroupB64Raw_of_padBitsSet (by simpa using h)]
  rfl

theorem groupsB64Raw_of_not_padBitsSet {p : Nat} (hp : p ≤ 2) {q : List Byte} (hlen : q.length % 4 = 0)
    (hq : 4 ≤ q.length) (h : ¬PadBitsSet p (q.getD (q.length - 3) 0) (q.getD (q.length - 2) 0)) :
    ∃ r, groupsB64Raw p q = .ok r ∧ r.length = 3 * q.length / 4 - p := by
  obtain ⟨l, a, b, c, d, rfl⟩ := exists_append_last_four hq
  obtain ⟨r, hr, hgroups⟩ := groupsB64Raw_append p a b c d l (by simpa using hlen)
  obtain ⟨r', hok, hr'⟩ := lastGroupB64Raw_of_not_padBitsSet hp (b := b) (c := c) (by simpa using h) a d
  refine ⟨r ++ r', by rw [hgroups, hok]; rfl, ?_⟩
  simp only [List.length_append, hr, List.length_cons, List.length_nil] at hlen ⊢
  omega

theorem packB64Raw_refused {q : List Byte} (hlen : q.length % 4 = 0) (h : paddingRefused .b64 .raw q) :
    packB64Raw q = .error .paddingOperand := by
  rw [packB64Raw, if_neg (not_not.2 hlen)]
  split_ifs with hsentinel
  · rfl
  · have hpad := ((paddingRefused_b64_raw_iff q).1 h).resolve_left hsentinel
    have hq : 4 ≤ q.length := by
      by_contra hshort
      simp [PadBitsSet, trailingPad, hshort] at hpad
    exact groupsB64Raw_of_padBitsSet hlen hq hpad

theorem packB64Raw_accepted {q : List Byte} (hlen : q.length % 4 = 0) (h : ¬paddingRefused .b64 .raw q) :
    ∃ r, packB64Raw q = .ok r ∧ r.length = convertLength .b64 .raw q := by
  obtain ⟨hsentinel, hpad⟩ := not_or.1 (mt (paddingRefused_b64_raw_iff q).2 h)
  rw [packB64Raw, if_neg (not_not.2 hlen), if_neg hsentinel, convertLength, sentinelCount_eq]
  rcases Nat.lt_or_ge q.length 4 with hshort | hq
  · obtain rfl : q = [] := List.eq_nil_of_length_eq_zero (by omega)
    exact ⟨[], rfl, rfl⟩
  · exact groupsB64Raw_of_not_padBitsSet (trailingPad_le q) hlen hq hpad

/-! ## What a conversion answers (R93) -/

section Pack

variable {f e : Enc} {q r : List Byte}

/-- The length constraint comes first (R184). -/
theorem pack_misaligned (hf : f ≠ .text) (he : e.nameable = true) (h : q.length % convertUnit f e ≠ 0) :
    pack f e q = .error .misalignedEncoding := by
  cases f with
  | hex =>
    cases e with
    | hex => exact absurd (Nat.mod_one _) h
    | b64 | raw => exact if_pos h
    | text => contradiction
  | b64 =>
    cases e with
    | b64 => exact absurd (Nat.mod_one _) h
    | hex | raw => exact if_pos h
    | text => contradiction
  | raw => cases e <;> exact absurd (Nat.mod_one _) h
  | text => contradiction

theorem pack_padding (h : q.length % convertUnit f e = 0) (hp : paddingRefused f e q) :
    pack f e q = .error .paddingOperand := by
  unfold paddingRefused at hp
  split at hp
  · exact (if_neg (not_not.2 h)).trans (if_pos hp)
  · exact packB64Raw_refused h hp
  · contradiction

theorem pack_accepted (hf : f ≠ .text) (he : e.nameable = true) (h : q.length % convertUnit f e = 0)
    (hp : ¬paddingRefused f e q) : ∃ r, pack f e q = .ok r ∧ r.length = convertLength f e q := by
  cases f with
  | hex =>
    cases e with
    | hex => exact ⟨q, rfl, rfl⟩
    | b64 =>
      refine ⟨_, if_neg (not_not.2 h), ?_⟩
      simp only [convertUnit] at h
      rw [length_groupsHexB64, convertLength]
      omega
    | raw => exact ⟨_, if_neg (not_not.2 h), length_groupsHexRaw q⟩
    | text => contradiction
  | b64 =>
    cases e with
    | hex =>
      refine ⟨_, (if_neg (not_not.2 h)).trans (if_neg hp), ?_⟩
      simp only [convertUnit] at h
      rw [length_groupsB64Hex, convertLength]
      omega
    | b64 => exact ⟨q, rfl, rfl⟩
    | raw => exact packB64Raw_accepted h hp
    | text => contradiction
  | raw =>
    cases e with
    | hex => exact ⟨_, rfl, length_groupsRawHex q⟩
    | b64 => exact ⟨_, rfl, length_groupsRawB64 q⟩
    | raw => exact ⟨q, rfl, rfl⟩
    | text => contradiction
  | text => contradiction

/-- The three answers of a conversion, in the order of R184. -/
theorem pack_cases (hf : f ≠ .text) (he : e.nameable = true) (q : List Byte) :
    pack f e q = .error .misalignedEncoding ∨ pack f e q = .error .paddingOperand ∨
      (q.length % convertUnit f e = 0 ∧ ¬paddingRefused f e q ∧
        ∃ r, pack f e q = .ok r ∧ r.length = convertLength f e q) := by
  by_cases h : q.length % convertUnit f e = 0
  · by_cases hp : paddingRefused f e q
    · exact .inr (.inl (pack_padding h hp))
    · exact .inr (.inr ⟨h, hp, pack_accepted hf he h hp⟩)
  · exact .inl (pack_misaligned hf he h)

/-- What a conversion that goes through has checked, and the length of its result. -/
theorem checked_of_pack (hf : f ≠ .text) (he : e.nameable = true) (h : pack f e q = .ok r) :
    q.length % convertUnit f e = 0 ∧ ¬paddingRefused f e q ∧ r.length = convertLength f e q := by
  rcases pack_cases hf he q with herr | herr | ⟨hlen, hp, r', hr', hr⟩
  · exact absurd (h.symm.trans herr) nofun
  · exact absurd (h.symm.trans herr) nofun
  · obtain rfl := Except.ok.inj (h.symm.trans hr')
    exact ⟨hlen, hp, hr⟩

end Pack

/-- Settles O39: the groups have the lengths of the table (`pack_accepted`) and make valid symbols. -/
theorem conversionLengthsFollowTable : Obligations.ConversionLengthsFollowTable := by
  intro f t q r hf ht hq h
  obtain ⟨-, -, hlen⟩ := checked_of_pack (ne_text_of_nameable hf) ht h
  exact ⟨hlen, symsValid_of_pack hq h⟩

/-- Settles O38, by what the conversion of the symbols read answers. -/
theorem convertPacksOrFails : Obligations.ConvertPacksOrFails := by
  intro d a e s he
  refine ⟨exec_convert_of_text he, fun henc q n hr =>
    ⟨fun h => exec_convert_refused he henc hr (pack_misaligned henc he h),
      fun h hp => exec_convert_refused he henc hr (pack_padding h hp), fun h hp => ?_⟩⟩
  obtain ⟨r, hpack, hlen⟩ := pack_accepted henc he h hp
  refine ⟨fun hcap => exec_convert_overflow he henc hr hpack (hlen ▸ hcap), fun hcap => ?_⟩
  exact ⟨_, r, exec_convert_packed he henc hr hpack (hlen ▸ hcap), hpack, wroteBuffer_bufWrite s d e r n⟩

/-! ## A sequence is known by its bits (R93) -/

@[simp] theorem length_msbFirst (n : Nat) (v : Byte) : (msbFirst n v).length = n := by
  simp [msbFirst]

/-- A symbol of `n` bits is known by them. -/
theorem eq_of_msbFirst_eq {n : Nat} {v v' : Byte} (hv : v.toNat < 2 ^ n) (hv' : v'.toNat < 2 ^ n)
    (h : msbFirst n v = msbFirst n v') : v = v' := by
  refine BitVec.eq_of_getLsbD_eq fun i _ => ?_
  rcases Nat.lt_or_ge i n with hi | hi
  · have hbit := List.map_inj_left.1 h (n - 1 - i) (List.mem_range.2 (by omega))
    rwa [show n - 1 - (n - 1 - i) = i by omega] at hbit
  · have hpow : 2 ^ n ≤ 2 ^ i := Nat.pow_le_pow_right (by decide) hi
    rw [BitVec.getLsbD, BitVec.getLsbD, Nat.testBit_lt_two_pow (by omega), Nat.testBit_lt_two_pow (by omega)]

/-- Two valid symbols with the same bits are equal, where one is a sentinel only if the other is. -/
theorem eq_of_symBits_eq {e : Enc} (he : e.nameable = true) {v v' : Byte} (hv : validSym e v = true)
    (hv' : validSym e v' = true) (hs : e = .b64 → (v = 255 ↔ v' = 255)) (h : symBits e v = symBits e v') : v = v' := by
  cases e with
  | hex =>
    have := (validSym_hex_iff v).1 hv
    have := (validSym_hex_iff v').1 hv'
    exact eq_of_msbFirst_eq (n := 4) (by omega) (by omega) h
  | b64 =>
    by_cases hsentinel : v = 255
    · rw [hsentinel, (hs rfl).1 hsentinel]
    · have hsentinel' := mt (hs rfl).2 hsentinel
      have := ((validSym_b64_iff v).1 hv).resolve_right hsentinel
      have := ((validSym_b64_iff v').1 hv').resolve_right hsentinel'
      rw [symBits_b64 hsentinel, symBits_b64 hsentinel'] at h
      exact eq_of_msbFirst_eq (n := 6) (by omega) (by omega) h
  | raw => exact eq_of_msbFirst_eq (n := 8) v.isLt v'.isLt h
  | text => contradiction

/-- Symbols of one encoding carry the same number of bits, but for the sentinel. -/
theorem length_symBits_congr {e : Enc} {v v' : Byte} (hs : e = .b64 → (v = 255 ↔ v' = 255)) :
    (symBits e v).length = (symBits e v').length := by
  cases e with
  | hex | raw => simp
  | b64 =>
    by_cases hsentinel : v = 255
    · rw [hsentinel, (hs rfl).1 hsentinel]
    · simp [symBits_b64 hsentinel, symBits_b64 (mt (hs rfl).2 hsentinel)]
  | text => rfl

/-- Two valid sequences of one length with the same bits are equal, where their sentinels are the last `p` symbols of
both. -/
theorem eq_of_bitString_eq {e : Enc} (he : e.nameable = true) {p : Nat} : {q q' : List Byte} → q.length = q'.length →
    SymsValid e q → SymsValid e q' → (e = .b64 → SentinelsLast p q ∧ SentinelsLast p q') →
    bitString e q = bitString e q' → q = q'
  | [], [], _, _, _, _, _ => rfl
  | v :: q, v' :: q', hlen, hq, hq', hs, h => by
    simp only [symsValid_cons, List.length_cons, Nat.add_right_cancel_iff, sentinelsLast_cons,
      bitString_cons] at hlen hq hq' hs h
    have hv : e = .b64 → (v = 255 ↔ v' = 255) := fun hb => (hs hb).1.1.trans (hlen ▸ (hs hb).2.1.symm)
    obtain ⟨hbits, hrest⟩ := List.append_inj h (length_symBits_congr hv)
    rw [eq_of_symBits_eq he hq.1 hq'.1 hv hbits,
      eq_of_bitString_eq he hlen hq.2 hq'.2 (fun hb => ⟨(hs hb).1.2, (hs hb).2.2⟩) hrest]

/-! ## Where the sentinels of a result stand (R94, R96) -/

/-- How many sentinels the B64 form of `n` bytes ends with (R96). -/
def padSymbols (n : Nat) : Nat := (3 - n % 3) % 3

theorem padSymbols_le (n : Nat) : padSymbols n ≤ 2 := by
  unfold padSymbols
  omega

theorem padSymbols_add_three (n : Nat) : padSymbols (n + 3) = padSymbols n := by simp [padSymbols]

theorem padSymbols_le_length_groupsRawB64 (q : List Byte) : padSymbols q.length ≤ (groupsRawB64 q).length := by
  rw [length_groupsRawB64, padSymbols]
  omega

theorem length_groupsRawB64_mod (q : List Byte) : (groupsRawB64 q).length % 4 = 0 := by
  rw [length_groupsRawB64, Nat.mul_mod_right]

theorem trailingPad_le_length (q : List Byte) : trailingPad q ≤ q.length := by
  simp only [trailingPad]
  split_ifs <;> omega

theorem sentinelsLast_zero_iff (q : List Byte) : SentinelsLast 0 q ↔ 255 ∉ q := by
  induction q with
  | nil => simp
  | cons v q ih => simp [ih, eq_comm]

/-- A sextet is no sentinel, in the form `simp` writes the sentinel. -/
@[simp] theorem symAt_eq_sentinel_iff {w : Nat} (v : BitVec w) (lo : Nat) : symAt v lo 6 = 255#8 ↔ False :=
  iff_false_intro (symAt_ne_sentinel v lo)

theorem sentinelsLast_groupsHexB64 (q : List Byte) : SentinelsLast 0 (groupsHexB64 q) := by
  induction q using groupsHexB64.induct with
  | case1 a b c q ih => simp [groupsHexB64, ih]
  | case2 q hq => simp [groupsHexB64]

theorem sentinelsLast_groupsRawB64 : (q : List Byte) → SentinelsLast (padSymbols q.length) (groupsRawB64 q)
  | [] => sentinelsLast_nil _
  | [a] => by simp [groupsRawB64, padSymbols]
  | [a, b] => by simp [groupsRawB64, padSymbols]
  | a :: b :: c :: q => by
    have hrest := sentinelsLast_groupsRawB64 q
    have hroom := padSymbols_le_length_groupsRawB64 q
    simp only [List.length_cons, padSymbols_add_three, groupsRawB64, sentinelsLast_cons, symAt_ne_sentinel, false_iff]
    exact ⟨by omega, by omega, by omega, by omega, hrest⟩

/-- The trailing sentinels are counted right where a sequence has no others (R96). -/
theorem trailingPad_of_sentinelsLast {p : Nat} {q : List Byte} (hp : p ≤ 2) (hlen : q.length % 4 = 0)
    (hpq : p ≤ q.length) (h : SentinelsLast p q) : trailingPad q = p := by
  have hat (i : Nat) (hi : i < q.length) : q.getD i 0 = 255 ↔ q.length ≤ i + p := by
    rw [← h i hi, List.getElem?_eq_getElem hi, List.getD_eq_getElem _ _ hi, Option.some.injEq]
  rcases Nat.lt_or_ge q.length 4 with hshort | hq
  · rw [trailingPad, if_neg (by omega)]
    omega
  · simp only [trailingPad, hat (q.length - 1) (by omega), hat (q.length - 2) (by omega)]
    split_ifs <;> omega

/-- Where the sentinels stand last, the conversion to RAW finds none elsewhere (R96). -/
theorem packB64Raw_of_sentinelsLast {p : Nat} {q : List Byte} (hp : p ≤ 2) (hlen : q.length % 4 = 0)
    (hpq : p ≤ q.length) (h : SentinelsLast p q) : packB64Raw q = groupsB64Raw p q := by
  have hnone : 255 ∉ q.take (q.length - p) := by
    rw [mem_take_iff_getElem?]
    rintro ⟨i, hi, hsentinel⟩
    have := (h i (by omega)).1 hsentinel
    omega
  rw [packB64Raw, if_neg (not_not.2 hlen), trailingPad_of_sentinelsLast hp hlen hpq h, if_neg hnone]

/-! ## The way back goes through (R99) -/

/-- A sextet that ends in `n` zero bits has no pad bits set. -/
theorem symAt_append_zero_mod {w : Nat} (v : BitVec w) {n : Nat} (hn : n ≤ 6) :
    (symAt (v ++ 0#n) 0 6).toNat % 2 ^ n = 0 := by
  have hdvd : 2 ^ n ∣ 2 ^ 6 := Nat.pow_dvd_pow 2 hn
  rw [symAt, BitVec.toNat_setWidth_of_le (by decide), BitVec.extractLsb'_toNat, BitVec.toNat_append, BitVec.toNat_ofNat,
    Nat.zero_mod, Nat.or_zero, Nat.shiftRight_zero, Nat.mod_mod_of_dvd _ hdvd, Nat.shiftLeft_eq, Nat.mul_mod_left]

/-- The B64 form of bytes has no pad bits set. -/
theorem groupsB64Raw_groupsRawB64 :
    (q : List Byte) → ∃ r, groupsB64Raw (padSymbols q.length) (groupsRawB64 q) = .ok r
  | [] => ⟨[], rfl⟩
  | [a] => by
    have hpad : ¬PadBitsSet 2 (symAt (a ++ 0#4) 0 6) 255 := by
      simpa [PadBitsSet] using symAt_append_zero_mod a (n := 4) (by decide)
    obtain ⟨r, hr, -⟩ := lastGroupB64Raw_of_not_padBitsSet (by decide) hpad (symAt (a ++ 0#4) 6 6) 255
    exact ⟨r, hr⟩
  | [a, b] => by
    have hpad : ¬PadBitsSet 1 (symAt (a ++ b ++ 0#2) 6 6) (symAt (a ++ b ++ 0#2) 0 6) := by
      simpa [PadBitsSet] using symAt_append_zero_mod (a ++ b) (n := 2) (by decide)
    obtain ⟨r, hr, -⟩ := lastGroupB64Raw_of_not_padBitsSet (by decide) hpad (symAt (a ++ b ++ 0#2) 12 6) 255
    exact ⟨r, hr⟩
  | [a, b, c] => by simp [groupsRawB64, padSymbols, groupsB64Raw, lastGroupB64Raw]
  | a :: b :: c :: d :: q => by
    obtain ⟨r, hr⟩ := groupsB64Raw_groupsRawB64 (d :: q)
    have hne : groupsRawB64 (d :: q) ≠ [] := by
      rw [← List.length_pos_iff, length_groupsRawB64, List.length_cons]
      omega
    rw [groupsRawB64, List.length_cons, List.length_cons, List.length_cons, padSymbols_add_three,
      groupsB64Raw_cons hne, hr]
    exact ⟨_, rfl⟩


/-- The B64 form of bytes is whole groups, and its padding is counted right. -/
theorem packB64Raw_groupsRawB64 (q : List Byte) : ∃ r, packB64Raw (groupsRawB64 q) = .ok r := by
  rw [packB64Raw_of_sentinelsLast (padSymbols_le _) (length_groupsRawB64_mod q) (padSymbols_le_length_groupsRawB64 q)
    (sentinelsLast_groupsRawB64 q)]
  exact groupsB64Raw_groupsRawB64 q

theorem trailingPad_groupsRawB64 (q : List Byte) : trailingPad (groupsRawB64 q) = padSymbols q.length :=
  trailingPad_of_sentinelsLast (padSymbols_le _) (length_groupsRawB64_mod q) (padSymbols_le_length_groupsRawB64 q)
    (sentinelsLast_groupsRawB64 q)

section RoundTrip

variable {f e : Enc} {q q' r : List Byte}

/-- The result of a conversion meets what the conversion back checks. -/
theorem exists_pack_back (hf : f.nameable = true) (he : e.nameable = true) (h : pack f e q = .ok r) :
    ∃ q', pack e f r = .ok q' := by
  obtain ⟨haligned, -, hlen⟩ := checked_of_pack (ne_text_of_nameable hf) he h
  cases f with
  | hex =>
    cases e with
    | hex => exact ⟨r, rfl⟩
    | b64 =>
      obtain rfl := packHexB64_ok h
      have heven : (groupsHexB64 q).length % 2 = 0 := by
        rw [length_groupsHexB64]
        omega
      exact ⟨_, (if_neg (not_not.2 heven)).trans (if_neg ((sentinelsLast_zero_iff _).1 (sentinelsLast_groupsHexB64 q)))⟩
    | raw => exact ⟨_, rfl⟩
    | text => contradiction
  | b64 =>
    cases e with
    | hex =>
      have hthree : r.length % 3 = 0 := by
        simp only [convertUnit, convertLength] at haligned hlen
        omega
      exact ⟨_, if_neg (not_not.2 hthree)⟩
    | b64 => exact ⟨r, rfl⟩
    | raw => exact ⟨_, rfl⟩
    | text => contradiction
  | raw =>
    cases e with
    | hex =>
      have heven : r.length % 2 = 0 := by
        simp only [convertLength] at hlen
        omega
      exact ⟨_, if_neg (not_not.2 heven)⟩
    | b64 =>
      obtain rfl := Except.ok.inj h
      exact packB64Raw_groupsRawB64 q
    | raw => exact ⟨r, rfl⟩
    | text => contradiction
  | text => contradiction

/-- There and back a sequence keeps its length: the padding of R96 comes off again. -/
theorem length_pack_back (hf : f.nameable = true) (he : e.nameable = true) (h : pack f e q = .ok r)
    (h' : pack e f r = .ok q') : q'.length = q.length := by
  obtain ⟨haligned, -, hlen⟩ := checked_of_pack (ne_text_of_nameable hf) he h
  obtain ⟨-, -, hlen'⟩ := checked_of_pack (ne_text_of_nameable he) hf h'
  cases f with
  | hex =>
    cases e with
    | hex | b64 | raw =>
      simp only [convertUnit, convertLength] at haligned hlen hlen'
      omega
    | text => contradiction
  | b64 =>
    cases e with
    | hex | b64 =>
      simp only [convertUnit, convertLength] at haligned hlen hlen'
      omega
    | raw =>
      have hpad := trailingPad_le q
      simp only [convertUnit, convertLength, sentinelCount_eq] at haligned hlen hlen'
      omega
    | text => contradiction
  | raw =>
    cases e with
    | hex | raw =>
      simp only [convertLength] at hlen hlen'
      omega
    | b64 =>
      obtain rfl := Except.ok.inj h
      have hpad := trailingPad_groupsRawB64 q
      simp only [convertLength, sentinelCount_eq, hpad, padSymbols] at hlen hlen'
      omega
    | text => contradiction
  | text => contradiction

/-- There and back the sentinels stand where they stood: those of B64 are the padding that R96 counts. -/
theorem sentinelsLast_pack_back (he : e.nameable = true) (hne : e ≠ .b64) (h : pack .b64 e q = .ok r)
    (h' : pack e .b64 r = .ok q') : ∃ p, SentinelsLast p q ∧ SentinelsLast p q' := by
  obtain ⟨haligned, hpadding, hlen⟩ := checked_of_pack (f := .b64) nofun he h
  cases e with
  | hex => exact ⟨0, (sentinelsLast_zero_iff q).2 hpadding, packHexB64_ok h' ▸ sentinelsLast_groupsHexB64 r⟩
  | raw =>
    obtain ⟨hsentinel, -⟩ := not_or.1 (mt (paddingRefused_b64_raw_iff q).2 hpadding)
    have hcount : padSymbols r.length = trailingPad q := by
      have := trailingPad_le q
      have := trailingPad_le_length q
      simp only [convertUnit, convertLength, sentinelCount_eq] at haligned hlen
      rw [hlen, padSymbols]
      omega
    obtain rfl := Except.ok.inj h'
    exact ⟨trailingPad q, sentinelsLast_trailingPad hsentinel, hcount ▸ sentinelsLast_groupsRawB64 r⟩
  | b64 | text => contradiction

theorem pack_self (he : e.nameable = true) (q : List Byte) : pack e e q = .ok q := by
  cases e with
  | hex | b64 | raw => rfl
  | text => contradiction

/-- R99: both conversions keep the bits, and the sequence they come back to has the length and the sentinels of the
first. -/
theorem pack_pack_back (hf : f.nameable = true) (he : e.nameable = true) (hq : SymsValid f q) (h : pack f e q = .ok r) :
    pack e f r = .ok q := by
  by_cases hfe : f = e
  · subst hfe
    obtain rfl := Except.ok.inj ((pack_self hf q).symm.trans h)
    exact h
  obtain ⟨q', h'⟩ := exists_pack_back hf he h
  have hr := symsValid_of_pack hq h
  have hlen := length_pack_back hf he h h'
  have hbits : bitString f q = bitString f q' := by
    have hthere := conversionRegroupsBits f e q r hf he hq h
    have hback := conversionRegroupsBits e f r q' he hf hr h'
    simp only [and_comm (a := e = _), hlen] at hback
    exact List.append_cancel_right (hthere.trans hback)
  have hsentinels : ∃ p, f = .b64 → SentinelsLast p q ∧ SentinelsLast p q' := by
    by_cases hb : f = .b64
    · subst hb
      exact (sentinelsLast_pack_back he (Ne.symm hfe) h h').imp fun _ hp _ => hp
    · exact ⟨0, fun hb' => absurd hb' hb⟩
  obtain ⟨p, hp⟩ := hsentinels
  rw [h', eq_of_bitString_eq hf hlen.symm hq (symsValid_of_pack hr h') hp hbits]

end RoundTrip

/-- A CONVERT that completes with NONE wrote what the conversion gives. -/
theorem convert_of_errcode_zero {d a : BufNum} {e : Enc} {s t : State} {q : List Byte} {n : Nat}
    (henc : (s.buf a).enc ≠ .text) (he : e.nameable = true) (hr : s.Reads a s.draws q n)
    (h : exec (.convert d a e) s = .next t) (ht : t.errcode = 0) :
    ∃ r, pack (s.buf a).enc e q = .ok r ∧ t = ((s.withDraws n).bufWrite d e r).complete .none := by
  have hcode {c : BitVec 8} (hc : c ≠ 0) : exec (.convert d a e) s ≠ .next (s.failed c n) := by
    rintro hfailed
    obtain rfl := Host.Outcome.next.inj (hfailed.symm.trans h)
    exact hc ht
  rcases pack_cases henc he q with herr | herr | ⟨-, -, r, hr', -⟩
  · exact absurd (exec_convert_refused he henc hr herr) (hcode (by decide))
  · exact absurd (exec_convert_refused he henc hr herr) (hcode (by decide))
  · rcases Nat.lt_or_ge Config.cap r.length with hcap | hcap
    · exact absurd (exec_convert_overflow he henc hr hr' hcap) (hcode (by decide))
    · exact ⟨r, hr', Host.Outcome.next.inj (h.symm.trans (exec_convert_packed he henc hr hr' hcap))⟩

/-- Settles O41: the buffer written reads back whole, and the conversion of its symbols goes back (`pack_pack_back`). -/
theorem conversionRoundTrips : Obligations.ConversionRoundTrips := by
  intro d d' a e s t q n hf he hreads hq hcap h ht
  obtain ⟨r, hr, rfl⟩ := convert_of_errcode_zero (ne_text_of_nameable hf) he hreads h ht
  let u := s.withDraws n
  let t := (u.bufWrite d e r).complete .none
  have htag : (t.buf d).enc = e := congrArg Buffer.enc (u.buf_bufWrite_same d e r)
  have hreads' : t.Reads d t.draws r n := syms_bufWrite u d e r n
  have hback : pack (t.buf d).enc (s.buf a).enc r = .ok q := htag ▸ pack_pack_back hf he hq hr
  have hstorage : (t.buf d).enc ≠ .text := htag ▸ ne_text_of_nameable he
  have hwrote := wroteBuffer_bufWrite t d' (s.buf a).enc q n
  exact ⟨_, exec_convert_packed hf hstorage hreads' hback hcap, hwrote.completed.errcode, hwrote.buffer⟩

end Sys2Proof.Machine
end

section
/-! Proofs of the family 41_xor_hamming: XOR on the operands it reads, its checks in their order (R108, R109, R184), why a
second XOR with the same key gives A back (R111), and HAMM as a count of differing meaningful bits (R110, R112). -/

namespace Sys2Proof.Machine

/-! ## Two operands -/

theorem sameStorage_iff (s : State) (a b : BufNum) :
    sameStorage s a b = true ↔ (s.buf a).enc ≠ .text ∧ (s.buf a).enc = (s.buf b).enc := by
  simp only [sameStorage, Bool.and_eq_true, Buffer.isStorage_iff, beq_iff_eq]
  constructor
  · rintro ⟨⟨ha, -⟩, htags⟩
    exact ⟨ha, htags⟩
  · rintro ⟨ha, htags⟩
    exact ⟨⟨ha, htags ▸ ha⟩, htags⟩

theorem sameStorage_eq_false_iff (s : State) (a b : BufNum) :
    sameStorage s a b = false ↔
      (s.buf a).enc = .text ∨ (s.buf b).enc = .text ∨ (s.buf a).enc ≠ (s.buf b).enc := by
  rw [← Bool.not_eq_true, sameStorage_iff]
  by_cases htags : (s.buf a).enc = (s.buf b).enc <;> simp [htags]

/-- The second of two operands is read in the state the first read leaves. -/
theorem State.Reads.withSyms_withDraws {s : State} {b : BufNum} {q : List Byte} {n m : Nat} (h : s.Reads b n q m)
    (mnemonic : String) (k : List Byte → State → Result) :
    Machine.withSyms mnemonic b (s.withDraws n) k = k q (s.withDraws m) := withSyms_ok (s := s.withDraws n) h

theorem State.Reads.length_eq {s : State} {b : BufNum} {q : List Byte} {n m : Nat} (h : s.Reads b n q m) :
    q.length = (s.buf b).len := Buffer.length_of_syms h

/-- An operand without undefined slots reads the same whenever it is read, and draws nothing. -/
theorem exists_reads_of_allDefined {s : State} {b : BufNum} (h : s.allDefined b) : ∃ q, ∀ d, s.Reads b d q d := by
  refine ⟨(List.range (s.buf b).len).map fun k => (s.slot b k).getD 0, fun d => ?_⟩
  have hread := readSeq_defined (m := (s.buf b).sym) (i := 0)
    (q := (List.range (s.buf b).len).map fun k => (s.slot b k).getD 0) d fun k hk => ?_
  · rwa [List.length_map, List.length_range] at hread
  · have hk' : k < (s.buf b).len := by simpa using hk
    obtain ⟨v, hv⟩ := Option.ne_none_iff_exists'.1 (h k hk')
    have hread : (s.buf b).sym.read k = some v := hv
    simp [hk', hv, hread]

/-- A completion with NONE is no refusal. -/
theorem next_failed_ne_of_errcode_zero {s t : State} {c : BitVec 8} {n : Nat} (ht : t.errcode = 0) (hc : c ≠ 0) :
    (.next (s.failed c n) : Result) ≠ .next t := by
  intro hfailed
  obtain rfl := Host.Outcome.next.inj hfailed
  exact hc ht

/-! ## The symbols XOR computes (R108, R109) -/

theorem xorCyclic_eq_xorResult (qa qb : List Byte) : xorCyclic qa qb = xorResult qa qb := by
  refine List.ext_getElem (by simp [xorResult]) fun i hi _ => ?_
  have hi' : i < qa.length := by simpa using hi
  simp [xorCyclic, xorResult, hi']

@[simp] theorem length_xorResult (qa qb : List Byte) : (xorResult qa qb).length = qa.length := by simp [xorResult]

/-- R111: every symbol of A meets the same symbol of the key twice. -/
theorem xorResult_xorResult (qa qb : List Byte) : xorResult (xorResult qa qb) qb = qa := by
  refine List.ext_getElem (by simp) fun i _ hi => ?_
  simp [xorResult, hi]

/-- R111: with A as its own key every symbol meets itself. -/
theorem xorResult_self (q : List Byte) : xorResult q q = zeros q.length := by
  refine List.ext_getElem (by simp [zeros]) fun i hi _ => ?_
  have hi' : i < q.length := by simpa using hi
  simp [xorResult, zeros, Nat.mod_eq_of_lt hi']

/-- What R109 refuses: a B64 result with a symbol that is neither a sextet nor the sentinel. -/
abbrev BreaksPadding (e : Enc) (q : List Byte) : Prop := e = .b64 ∧ ∃ v, v ∈ q ∧ 63 < v.toNat ∧ v ≠ 255

theorem all_validSym_b64_eq_false_iff (q : List Byte) :
    q.all (validSym .b64) = false ↔ ∃ v, v ∈ q ∧ 63 < v.toNat ∧ v ≠ 255 := by
  simp only [List.all_eq_false, validSym_b64_iff, not_or, Nat.not_le]

theorem not_breaksPadding_of_symsValid {e : Enc} {q : List Byte} (h : SymsValid e q) : ¬BreaksPadding e q := by
  rintro ⟨rfl, v, hv, hlarge, hne⟩
  rcases (validSym_b64_iff v).1 (h v hv) with hsmall | hsentinel
  · omega
  · exact hne hsentinel

theorem symsValid_zeros (e : Enc) (n : Nat) : SymsValid e (zeros n) := by
  intro v hv
  obtain rfl := List.eq_of_mem_replicate hv
  cases e <;> rfl

/-- R108 lets equal lengths pass before it divides; the remainder is 0 there as well. -/
theorem lengthMismatch_iff (m n : Nat) : (m ≠ n ∧ m % n ≠ 0) ↔ m % n ≠ 0 := by
  refine and_iff_right_of_imp fun hmod heq => hmod ?_
  rw [heq, Nat.mod_self]

/-! ## XOR (R108) -/

section Xor

variable {d a b : BufNum} {s t : State} {qa qb : List Byte} {n m : Nat}

theorem exec_xor_of_mismatch
    (henc : (s.buf a).enc = .text ∨ (s.buf b).enc = .text ∨ (s.buf a).enc ≠ (s.buf b).enc) :
    exec (.xor d a b) s = .next (s.failed 3 s.draws) := by
  have hsame := (sameStorage_eq_false_iff s a b).2 henc
  simp only [exec, execXor, hsame]
  exact raise_eq_failed .encodingMismatch s

/-- XOR once both operands are read: the checks of R108 and R109 in their order, then the write. -/
theorem exec_xor_read (hstorage : (s.buf a).enc ≠ .text) (htags : (s.buf a).enc = (s.buf b).enc)
    (hqa : s.Reads a s.draws qa n) (hqb : s.Reads b n qb m) :
    exec (.xor d a b) s =
      if qa = [] ∨ qb = [] then .next (s.failed 4 m)
      else if qa.length % qb.length ≠ 0 then .next (s.failed 5 m)
      else if BreaksPadding (s.buf a).enc (xorResult qa qb) then .next (s.failed 12 m)
      else .next (((s.withDraws m).bufWrite d (s.buf a).enc (xorResult qa qb)).complete .none) := by
  have hsame := (sameStorage_iff s a b).2 ⟨hstorage, htags⟩
  simp only [exec, execXor, hsame, hqa.withSyms, hqb.withSyms_withDraws, xorCyclic_eq_xorResult,
    List.length_eq_zero_iff, lengthMismatch_iff, State.withDraws_buf, all_validSym_b64_eq_false_iff]
  rfl

/-- An XOR that completes with NONE passed every check and wrote `xorResult`. -/
theorem xor_of_errcode_zero (hqa : s.Reads a s.draws qa n) (hqb : s.Reads b n qb m)
    (h : exec (.xor d a b) s = .next t) (ht : t.errcode = 0) :
    ((s.buf a).enc ≠ .text ∧ (s.buf a).enc = (s.buf b).enc) ∧ (¬(qa = [] ∨ qb = []) ∧ qa.length % qb.length = 0)
      ∧ t = ((s.withDraws m).bufWrite d (s.buf a).enc (xorResult qa qb)).complete .none := by
  cases hsame : sameStorage s a b with
  | false =>
    rw [exec_xor_of_mismatch ((sameStorage_eq_false_iff s a b).1 hsame)] at h
    exact absurd h (next_failed_ne_of_errcode_zero ht (by decide))
  | true =>
    obtain ⟨hstorage, htags⟩ := (sameStorage_iff s a b).1 hsame
    rw [exec_xor_read hstorage htags hqa hqb] at h
    split_ifs at h with hempty hlen hpad
    · exact absurd h (next_failed_ne_of_errcode_zero ht (by decide))
    · exact absurd h (next_failed_ne_of_errcode_zero ht (by decide))
    · exact absurd h (next_failed_ne_of_errcode_zero ht (by decide))
    · exact ⟨⟨hstorage, htags⟩, ⟨hempty, not_not.1 hlen⟩, (Host.Outcome.next.inj h).symm⟩

/-- An XOR that passes every check writes `xorResult`. -/
theorem exec_xor_written (hstorage : (s.buf a).enc ≠ .text) (htags : (s.buf a).enc = (s.buf b).enc)
    (hqa : s.Reads a s.draws qa n) (hqb : s.Reads b n qb m) (hne : ¬(qa = [] ∨ qb = []))
    (hlen : qa.length % qb.length = 0) (hpad : ¬BreaksPadding (s.buf a).enc (xorResult qa qb)) :
    exec (.xor d a b) s
      = .next (((s.withDraws m).bufWrite d (s.buf a).enc (xorResult qa qb)).complete .none) := by
  rw [exec_xor_read hstorage htags hqa hqb, if_neg hne, if_neg (not_not.2 hlen), if_neg hpad]

end Xor

/-- Settles O43, check by check of `exec_xor_read`. -/
theorem xorCyclesKey : Obligations.XorCyclesKey := by
  intro d a b s
  refine ⟨exec_xor_of_mismatch, fun hstorage htags qa qb n m hqa hqb => ?_⟩
  have hread := exec_xor_read (d := d) hstorage htags hqa hqb
  refine ⟨fun hempty => ?_, fun ha hb hlen => ?_, fun ha hb hlen => ⟨fun hpad => ?_, fun hpad => ?_⟩⟩
  · rw [hread, if_pos hempty]
  · rw [hread, if_neg (not_or.2 ⟨ha, hb⟩), if_pos hlen]
  · rw [hread, if_neg (not_or.2 ⟨ha, hb⟩), if_neg (not_not.2 hlen), if_pos hpad]
  · exact ⟨_, exec_xor_written hstorage htags hqa hqb (not_or.2 ⟨ha, hb⟩) hlen hpad, wroteBuffer_bufWrite s d _ _ m⟩

/-- R111: the second XOR reads the first one's result and the same key, and computes A's symbols. -/
theorem xor_undoes_xor {d d' a b : BufNum} {s t : State} {qa : List Byte} {n : Nat} (hdb : d ≠ b)
    (hkey : s.allDefined b) (hqa : s.Reads a s.draws qa n) (hvalid : SymsValid (s.buf a).enc qa)
    (h : exec (.xor d a b) s = .next t) (ht : t.errcode = 0) :
    ∃ u, exec (.xor d' d b) t = .next u ∧ u.errcode = 0 ∧ BufferWritten t u d' (s.buf a).enc qa := by
  obtain ⟨qb, hqb⟩ := exists_reads_of_allDefined hkey
  obtain ⟨⟨hstorage, htags⟩, ⟨hne, hlen⟩, rfl⟩ := xor_of_errcode_zero hqa (hqb n) h ht
  let r := xorResult qa qb
  let t := ((s.withDraws n).bufWrite d (s.buf a).enc r).complete .none
  have hfirst : WroteBuffer s t d (s.buf a).enc r n := wroteBuffer_bufWrite s d _ r n
  have htag : (t.buf d).enc = (s.buf a).enc := hfirst.buffer.enc
  have hkept : t.buf b = s.buf b := hfirst.buffer.other b hdb.symm
  have hr : t.Reads d t.draws r n := syms_bufWrite (s.withDraws n) d _ r n
  have hqb' : t.Reads b n qb n := by
    rw [State.Reads, hkept]
    exact hqb n
  have hback : xorResult r qb = qa := xorResult_xorResult qa qb
  have hne' : ¬(r = [] ∨ qb = []) := by
    simpa only [← List.length_eq_zero_iff, r, length_xorResult] using hne
  have hlen' : r.length % qb.length = 0 := by rwa [length_xorResult]
  have hpad : ¬BreaksPadding (t.buf d).enc (xorResult r qb) := by
    rw [htag, hback]
    exact not_breaksPadding_of_symsValid hvalid
  have hundo := exec_xor_written (d := d') (htag ▸ hstorage) (by rw [htag, hkept, htags]) hr hqb' hne' hlen' hpad
  rw [htag, hback] at hundo
  have hwrote := wroteBuffer_bufWrite t d' (s.buf a).enc qa n
  exact ⟨_, hundo, hwrote.completed.errcode, hwrote.buffer⟩

theorem xor_self_writes_zeros {d a : BufNum} {s : State} (hstorage : (s.buf a).enc ≠ .text)
    (hpos : 0 < (s.buf a).len) (hdef : s.allDefined a) :
    ∃ u, exec (.xor d a a) s = .next u ∧ WroteBuffer s u d (s.buf a).enc (zeros (s.buf a).len) s.draws := by
  obtain ⟨q, hq⟩ := exists_reads_of_allDefined hdef
  have hlen : q.length = (s.buf a).len := (hq 0).length_eq
  have hzeros : xorResult q q = zeros (s.buf a).len := hlen ▸ xorResult_self q
  have hne : ¬(q = [] ∨ q = []) := by
    rw [or_self, ← List.length_eq_zero_iff]
    omega
  have hpad : ¬BreaksPadding (s.buf a).enc (xorResult q q) :=
    not_breaksPadding_of_symsValid (hzeros ▸ symsValid_zeros _ _)
  have hexec := exec_xor_written (d := d) hstorage rfl (hq _) (hq _) hne (Nat.mod_self _) hpad
  rw [hzeros] at hexec
  exact ⟨_, hexec, wroteBuffer_bufWrite s d _ _ _⟩

/-- Settles O44. -/
theorem xorIsInvolution : Obligations.XorIsInvolution :=
  ⟨fun _ _ _ _ _ _ _ _ hdb hkey hqa hvalid h ht => xor_undoes_xor hdb hkey hqa hvalid h ht,
    fun _ _ _ hstorage hpos hdef => xor_self_writes_zeros hstorage hpos hdef⟩

/-! ## The bits HAMM counts (R110) -/

/-- The mask of R110 holds the meaningful bits. -/
theorem getLsbD_hammMask (e : Enc) {k : Nat} (hk : k < 8) :
    (hammMask e).getLsbD k = decide (k < meaningfulBits e) := by
  cases e <;> decide +revert

theorem meaningfulBits_le (e : Enc) : meaningfulBits e ≤ 8 := by
  cases e <;> decide

/-- Where `p` picks numbers below `w` alone, counting further than `w` adds nothing. -/
theorem countP_range_of_lt {w n : Nat} (hw : w ≤ n) (p : Nat → Bool) :
    (List.range n).countP (fun k => decide (k < w) && p k) = (List.range w).countP p := by
  obtain ⟨r, rfl⟩ := Nat.exists_eq_add_of_le hw
  have hlow : (List.range w).countP (fun k => decide (k < w) && p k) = (List.range w).countP p :=
    List.countP_congr fun k hk => by simp [List.mem_range.1 hk]
  have hhigh : ((List.range r).map (w + ·)).countP (fun k => decide (k < w) && p k) = 0 :=
    List.countP_eq_zero.2 (by simp)
  rw [List.range_add, List.countP_append, hlow, hhigh, Nat.add_zero]

/-- Counting the masked bits of `x ^^^ y` is counting the meaningful bits that differ. -/
theorem popcount_hammMask (e : Enc) (x y : Byte) : popcount ((x ^^^ y) &&& hammMask e) = differingBits e x y := by
  have hbit (k : Nat) (hk : k < 8) :
      ((x ^^^ y) &&& hammMask e).getLsbD k = (decide (k < meaningfulBits e) && (x.getLsbD k != y.getLsbD k)) := by
    rw [BitVec.getLsbD_and, BitVec.getLsbD_xor, getLsbD_hammMask e hk, Bool.and_comm, Bool.bne_eq_xor]
  calc popcount ((x ^^^ y) &&& hammMask e)
    _ = (List.range 8).countP fun k => decide (k < meaningfulBits e) && (x.getLsbD k != y.getLsbD k) :=
      List.countP_congr fun k hk => by rw [hbit k (List.mem_range.1 hk)]
    _ = (List.range (meaningfulBits e)).countP fun k => x.getLsbD k != y.getLsbD k :=
      countP_range_of_lt (meaningfulBits_le e) _
    _ = differingBits e x y := List.countP_eq_length_filter

theorem differingBits_comm (e : Enc) (x y : Byte) : differingBits e x y = differingBits e y x := by
  simp only [differingBits, bne_comm]

theorem differingBits_self (e : Enc) (x : Byte) : differingBits e x x = 0 := by
  simp [differingBits]

theorem differingBits_le (e : Enc) (x y : Byte) : differingBits e x y ≤ 8 := by
  have hcount := List.length_filter_le (fun k => x.getLsbD k != y.getLsbD k) (List.range (meaningfulBits e))
  rw [List.length_range] at hcount
  exact hcount.trans (meaningfulBits_le e)

/-! ## The Hamming distance (R110, R112) -/

/-- The model's sum over pairs of symbols is the sum over indexes. -/
theorem hammSum_eq_hammDistance (e : Enc) {qa qb : List Byte} (h : qa.length = qb.length) :
    hammSum (hammMask e) qa qb = hammDistance e qa qb := by
  have hterms : List.zipWith (fun x y => popcount ((x ^^^ y) &&& hammMask e)) qa qb
      = (List.range qa.length).map fun i => differingBits e (qa.getD i 0) (qb.getD i 0) := by
    refine List.ext_getElem (by simp [h]) fun i hi _ => ?_
    obtain ⟨ha, hb⟩ : i < qa.length ∧ i < qb.length := by simpa using hi
    simp [popcount_hammMask, ha, hb]
  exact congrArg List.sum hterms

theorem hammDistance_comm (e : Enc) {qa qb : List Byte} (h : qa.length = qb.length) :
    hammDistance e qa qb = hammDistance e qb qa := by
  simp only [hammDistance, h, differingBits_comm e (qa.getD _ 0)]

theorem hammDistance_self (e : Enc) (q : List Byte) : hammDistance e q q = 0 := by
  simp [hammDistance, differingBits_self]

theorem hammDistance_le (e : Enc) (qa qb : List Byte) : hammDistance e qa qb ≤ 8 * qa.length := by
  have hsum := List.sum_le_card_nsmul
    ((List.range qa.length).map fun i => differingBits e (qa.getD i 0) (qb.getD i 0)) 8 fun k hk => by
      obtain ⟨i, -, rfl⟩ := List.mem_map.1 hk
      exact differingBits_le e _ _
  simpa [hammDistance, Nat.mul_comm] using hsum

/-- R166: RESULT holds the distance of any operands within CAP without wrapping. -/
theorem toNat_ofNat_hammDistance (e : Enc) {qa : List Byte} (qb : List Byte) (h : qa.length ≤ Config.cap) :
    (BitVec.ofNat 32 (hammDistance e qa qb)).toNat = hammDistance e qa qb := by
  have hdistance := hammDistance_le e qa qb
  have hcap := Config.cap_le
  rw [BitVec.toNat_ofNat, Nat.mod_eq_of_lt (by omega)]

/-! ## HAMM (R110) -/

section Hamm

variable {a b : BufNum} {s : State} {qa qb : List Byte} {n m : Nat}

theorem exec_hamm_of_mismatch
    (henc : (s.buf a).enc = .text ∨ (s.buf b).enc = .text ∨ (s.buf a).enc ≠ (s.buf b).enc) :
    exec (.hamm a b) s = .next (s.failed 3 s.draws) := by
  have hsame := (sameStorage_eq_false_iff s a b).2 henc
  simp only [exec, execHamm, hsame]
  exact raise_eq_failed .encodingMismatch s

theorem exec_hamm_of_lengths (hstorage : (s.buf a).enc ≠ .text) (htags : (s.buf a).enc = (s.buf b).enc)
    (hlen : (s.buf a).len ≠ (s.buf b).len) : exec (.hamm a b) s = .next (s.failed 5 s.draws) := by
  have hsame := (sameStorage_iff s a b).2 ⟨hstorage, htags⟩
  simp only [exec, execHamm, hsame, if_pos hlen]
  exact raise_eq_failed .lengthMismatch s

theorem exec_hamm_counted (hstorage : (s.buf a).enc ≠ .text) (htags : (s.buf a).enc = (s.buf b).enc)
    (hlen : (s.buf a).len = (s.buf b).len) (hqa : s.Reads a s.draws qa n) (hqb : s.Reads b n qb m) :
    exec (.hamm a b) s = .next (State.complete
      { s.withDraws m with result := BitVec.ofNat 32 (hammDistance (s.buf a).enc qa qb) } .none) := by
  have hsame := (sameStorage_iff s a b).2 ⟨hstorage, htags⟩
  have hlengths : qa.length = qb.length := by rw [hqa.length_eq, hqb.length_eq, hlen]
  simp only [exec, execHamm, hsame, if_neg (not_not.2 hlen), hqa.withSyms, hqb.withSyms_withDraws,
    State.withDraws_buf, hammSum_eq_hammDistance _ hlengths]
  exact succeed_eq _

end Hamm

/-- The completion of a command that writes RESULT leaves everything else (R182). -/
theorem wroteResult_complete (s : State) (v : Word) (n : Nat) :
    WroteResult s (State.complete { s.withDraws n with result := v } .none) v n where
  completed := ⟨rfl, rfl, rfl, ⟨rfl, rfl, rfl, rfl, rfl, rfl, rfl, rfl, rfl, rfl⟩⟩
  buffers := fun _ => rfl
  st := rfl
  keys := ⟨rfl, rfl⟩
  result := rfl
  draws := rfl

/-- Settles O45. -/
theorem hammCountsDifferingBits : Obligations.HammCountsDifferingBits := by
  intro a b s
  refine ⟨exec_hamm_of_mismatch, fun hstorage htags =>
    ⟨exec_hamm_of_lengths hstorage htags, fun hlen qa qb n m hqa hqb => ?_⟩⟩
  have hwrote := wroteResult_complete s (BitVec.ofNat 32 (hammDistance (s.buf a).enc qa qb)) m
  refine ⟨_, exec_hamm_counted hstorage htags hlen hqa hqb, hwrote, fun hcap => ?_⟩
  rw [hwrote.result, toNat_ofNat_hammDistance _ qb (hqa.length_eq ▸ hcap)]

/-- Settles O46: operands without undefined slots draw nothing, so both orders reach one state. -/
theorem hammIsSymmetric : Obligations.HammIsSymmetric := by
  intro a b s ha hb hstorage
  obtain ⟨qa, hqa⟩ := exists_reads_of_allDefined ha
  obtain ⟨qb, hqb⟩ := exists_reads_of_allDefined hb
  refine ⟨fun htags hlen => ?_, _, exec_hamm_counted hstorage rfl rfl (hqa _) (hqa _), rfl, ?_⟩
  · have hlengths : qa.length = qb.length := by rw [(hqa 0).length_eq, (hqb 0).length_eq, hlen]
    have hba := exec_hamm_counted (htags ▸ hstorage) htags.symm hlen.symm (hqb _) (hqa _)
    rw [← htags, ← hammDistance_comm _ hlengths] at hba
    exact ⟨_, exec_hamm_counted hstorage htags hlen (hqa _) (hqb _), hba⟩
  · exact congrArg (BitVec.ofNat 32) (hammDistance_self _ qa)

end Sys2Proof.Machine
end

section
/-! Proofs of the family 42_aes: the round transforms byte by byte (R120 to R123), the key schedule word by word (R124),
the ten commands on the state they leave, DECBLK as the sequence of its round commands (R125), and DECECB block by block
(R127, R136, R137). -/

namespace Sys2Proof.Machine

/-! ## Bytes of a block (R20, R60) -/

@[simp] theorem Block.length_bytes (x : Block) : x.bytes.length = 16 := x.length_toList

@[simp] theorem Block.getElem?_bytes (x : Block) (i : Fin 16) : x.bytes[i.val]? = some (x.get i) := by
  simp [Block.bytes, Vector.get_eq_getElem]

@[simp] theorem get_blockAt (q : List Byte) (o : Nat) (i : Fin 16) : (blockAt q o).get i = q.getD (o + i.val) 0 := by
  simp [blockAt]

theorem Block.ext_get {x y : Block} (h : ∀ i : Fin 16, x.get i = y.get i) : x = y :=
  Vector.ext fun i hi => h ⟨i, hi⟩

/-- A block read inside a sequence holds the symbols of the sequence. -/
theorem getElem?_eq_get_blockAt {q : List Byte} {o : Nat} (h : o + 16 ≤ q.length) (i : Fin 16) :
    q[o + i.val]? = some ((blockAt q o).get i) := by
  have hi : o + i.val < q.length := by omega
  simp [hi]

theorem getElem?_eq_get_blockAt_zero {q : List Byte} (h : q.length = 16) (i : Fin 16) :
    q[i.val]? = some ((blockAt q 0).get i) := by
  simpa using getElem?_eq_get_blockAt (o := 0) (Nat.le_of_eq h.symm) i

theorem blockAt_eq {q : List Byte} {o : Nat} {x : Block} (h : ∀ i : Fin 16, q[o + i.val]? = some (x.get i)) :
    blockAt q o = x :=
  Block.ext_get fun i => by simp [List.getD_eq_getElem?_getD, h i]

theorem blockAt_congr {q : List Byte} {o o' : Nat} (h : ∀ i, i < 16 → q[o + i]? = q[o' + i]?) :
    blockAt q o = blockAt q o' :=
  Block.ext_get fun i => by simp [List.getD_eq_getElem?_getD, h i.val i.isLt]

/-! ## The round transforms (R120 to R123) -/

@[simp] theorem get_addRoundKey (x k : Block) (i : Fin 16) : (addRoundKey x k).get i = x.get i ^^^ k.get i := by
  simp [addRoundKey]

@[simp] theorem get_invSubBytes (x : Block) (i : Fin 16) : (invSubBytes x).get i = invSbox (x.get i) := by
  simp [invSubBytes]

/-- R121: the byte that arrives in column c + r comes from column c. -/
theorem shiftSource_cell : ∀ r c : Fin 4, shiftSource (cell r (c + r)) = cell r c := by decide

theorem get_invShiftRows_cell (x : Block) (r c : Fin 4) : (invShiftRows x).get (cell r (c + r)) = x.get (cell r c) := by
  simp [invShiftRows, shiftSource_cell]

theorem columnByte_cell : ∀ r c k : Fin 4, columnByte (cell r c) k = cell k c := by decide

theorem cell_mod (r c : Fin 4) : (cell r c).val % 4 = r.val := by
  simp only [cell]
  omega

theorem get_invMixColumns_cell (x : Block) (r c : Fin 4) :
    (invMixColumns x).get (cell r c)
      = invMixByte r.val (x.get (cell 0 c)) (x.get (cell 1 c)) (x.get (cell 2 c)) (x.get (cell 3 c)) := by
  simp [invMixColumns, columnByte_cell, cell_mod]

/-! ### The tables they read (R148 to R154) -/

/-- INV_SBOX inverts SBOX on every byte. -/
theorem sbox_invSbox : ∀ x : Byte, sbox (invSbox x) = x := by decide

theorem mul9_eq_gfMul : ∀ x : Byte, mul9 x = gfMul 9 x := by decide +kernel

theorem mul11_eq_gfMul : ∀ x : Byte, mul11 x = gfMul 11 x := by decide +kernel

theorem mul13_eq_gfMul : ∀ x : Byte, mul13 x = gfMul 13 x := by decide +kernel

theorem mul14_eq_gfMul : ∀ x : Byte, mul14 x = gfMul 14 x := by decide +kernel

/-- R123: the four table rows are the GF(2^8) products of the column. -/
theorem isInvMixColumn_invMixByte (c0 c1 c2 c3 : Byte) :
    IsInvMixColumn c0 c1 c2 c3 (invMixByte 0 c0 c1 c2 c3) (invMixByte 1 c0 c1 c2 c3) (invMixByte 2 c0 c1 c2 c3)
      (invMixByte 3 c0 c1 c2 c3) := by
  simp [IsInvMixColumn, invMixByte, mul9_eq_gfMul, mul11_eq_gfMul, mul13_eq_gfMul, mul14_eq_gfMul]

/-! ## The key schedule (R124) -/

@[simp] theorem get_keyExpansion (k : Block) (n : Fin 11) : (keyExpansion k).get n = roundKey k n.val := by
  simp [keyExpansion]

/-- The transformed last word: rotated, substituted, and RCON[i] on its first byte alone. -/
theorem scheduleWord_eq (i : Nat) (p : Block) (j : Fin 4) :
    scheduleWord i p j
      = sbox (p.get ⟨12 + (j.val + 1) % 4, by omega⟩) ^^^ (if j = 0 then (rcon i).getD 0 else 0) := by
  match j with
  | 0 => rfl
  | 1 | 2 | 3 => simp [scheduleWord]

theorem get_nextRoundKey (i : Nat) (p : Block) (j c : Fin 4) :
    (nextRoundKey i p).get ⟨4 * c.val + j.val, by omega⟩ = nextKeyByte i p j c.val c.isLt := by
  have hbyte : (4 * c.val + j.val) % 4 = j.val := by omega
  have hword : (4 * c.val + j.val) / 4 = c.val := by omega
  simp [nextRoundKey, hbyte, hword]

/-- Word 0 of a round key takes the transformed word. -/
theorem get_nextRoundKey_first (i : Nat) (p : Block) (j : Fin 4) :
    (nextRoundKey i p).get ⟨j.val, by omega⟩ = p.get ⟨j.val, by omega⟩ ^^^ scheduleWord i p j := by
  exact (congrArg (nextRoundKey i p).get (Fin.ext (by simp))).trans (get_nextRoundKey i p j 0)

/-- Every later word takes the word before it. -/
theorem get_nextRoundKey_later (i : Nat) (p : Block) (j : Fin 4) (c : Fin 3) :
    (nextRoundKey i p).get ⟨4 * (c.val + 1) + j.val, by omega⟩
      = (nextRoundKey i p).get ⟨4 * c.val + j.val, by omega⟩ ^^^ p.get ⟨4 * (c.val + 1) + j.val, by omega⟩ :=
  (get_nextRoundKey i p j c.succ).trans
    (congrArg (· ^^^ p.get ⟨4 * (c.val + 1) + j.val, by omega⟩) (get_nextRoundKey i p j c.castSucc).symm)

theorem isKeySchedule_keyExpansion (k : Block) : IsKeySchedule k (keyExpansion k) := by
  refine ⟨get_keyExpansion k 0, fun i h j => ?_⟩
  simp only [get_keyExpansion]
  refine ⟨?_, get_nextRoundKey_later (i + 1) (roundKey k i) j⟩
  rw [← scheduleWord_eq]
  exact get_nextRoundKey_first (i + 1) (roundKey k i) j

/-! ## What the commands of the family leave behind (R182) -/

/-- Writing ST and completing leaves everything else. -/
theorem wroteSt_setSt (s : State) (x : Block) (n : Nat) :
    WroteSt s (((s.withDraws n).setSt x).complete .none) n where
  completed := ⟨rfl, rfl, rfl, ⟨rfl, rfl, rfl, rfl, rfl, rfl, rfl, rfl, rfl, rfl⟩⟩
  buffers := fun _ => rfl
  keys := ⟨rfl, rfl⟩
  result := rfl
  draws := rfl

/-- The state after RK was set, a command having drawn `n` values by then (R126, R127). -/
abbrev State.keySet (s : State) (n : Nat) (w : KeyTable) : State := (s.withDraws n).setKeys w

theorem registersKept_keySet (s : State) (n : Nat) (w : KeyTable) : RegistersKept s (s.keySet n w) :=
  ⟨rfl, rfl, rfl, rfl, rfl, rfl, rfl, rfl, rfl, rfl⟩

theorem succeeded_complete {s t : State} (h : RegistersKept s t) : Succeeded s (t.complete .none) :=
  ⟨rfl, rfl, rfl, { h with }⟩

/-! ## KEYEXP (R126) -/

section Keyexp

variable {a : BufNum} {s : State} {q : List Byte} {n : Nat}

theorem exec_keyexp_of_not_raw (henc : (s.buf a).enc ≠ .raw) : exec (.keyexp a) s = .next (s.failed 3 s.draws) := by
  simp only [exec, execKeyexp, if_pos henc]
  exact raise_eq_failed .encodingMismatch s

theorem exec_keyexp_of_length (henc : (s.buf a).enc = .raw) (hlen : (s.buf a).len ≠ 16) :
    exec (.keyexp a) s = .next (s.failed 8 s.draws) := by
  simp only [exec, execKeyexp, if_neg (not_not.2 henc), if_pos hlen]
  exact raise_eq_failed .invalidKeyLength s

theorem exec_keyexp_expanded (henc : (s.buf a).enc = .raw) (hlen : (s.buf a).len = 16) (hr : s.Reads a s.draws q n) :
    exec (.keyexp a) s = .next ((s.keySet n (keyExpansion (blockAt q 0))).complete .none) := by
  simp only [exec, execKeyexp, if_neg (not_not.2 henc), if_neg (not_not.2 hlen), hr.withSyms]
  exact succeed_eq _

end Keyexp

/-- Settles O47. -/
theorem keyexpExpandsKey : Obligations.KeyexpExpandsKey := by
  intro a s
  refine ⟨exec_keyexp_of_not_raw, fun henc => ⟨exec_keyexp_of_length henc, fun hlen q n hr => ?_⟩⟩
  exact ⟨_, blockAt q 0, exec_keyexp_expanded henc hlen hr, succeeded_complete (registersKept_keySet s n _),
    fun _ => rfl, rfl, rfl, rfl, rfl, getElem?_eq_get_blockAt_zero (hr.length_eq.trans hlen),
    isKeySchedule_keyExpansion _⟩

/-! ## STLD and STST (R128, R129) -/

section Stld

variable {a : BufNum} {s : State} {q : List Byte} {n : Nat}

theorem exec_stld_of_not_raw (henc : (s.buf a).enc ≠ .raw) : exec (.stld a) s = .next (s.failed 3 s.draws) := by
  simp only [exec, execStld, if_pos henc]
  exact raise_eq_failed .encodingMismatch s

theorem exec_stld_of_length (henc : (s.buf a).enc = .raw) (hlen : (s.buf a).len ≠ 16) :
    exec (.stld a) s = .next (s.failed 7 s.draws) := by
  simp only [exec, execStld, if_neg (not_not.2 henc), if_pos hlen]
  exact raise_eq_failed .invalidBlockLength s

theorem exec_stld_loaded (henc : (s.buf a).enc = .raw) (hlen : (s.buf a).len = 16) (hr : s.Reads a s.draws q n) :
    exec (.stld a) s = .next (((s.withDraws n).setSt (blockAt q 0)).complete .none) := by
  simp only [exec, execStld, if_neg (not_not.2 henc), if_neg (not_not.2 hlen), hr.withSyms]
  exact succeed_eq _

end Stld

/-- Settles O51. -/
theorem stldLoadsState : Obligations.StldLoadsState := by
  intro a s
  refine ⟨exec_stld_of_not_raw, fun henc => ⟨exec_stld_of_length henc, fun hlen q n hr => ?_⟩⟩
  exact ⟨_, exec_stld_loaded henc hlen hr, wroteSt_setSt s _ n,
    getElem?_eq_get_blockAt_zero (hr.length_eq.trans hlen)⟩

/-- Settles O52. -/
theorem ststStoresState : Obligations.StstStoresState := fun d s =>
  ⟨_, s.st.bytes, rfl, wroteBuffer_bufWrite s d .raw _ s.draws, s.st.length_bytes, s.st.getElem?_bytes⟩

/-! ## The commands that take a round key: ARK and RKRD (R130, R135, R181) -/

section RoundKey

variable {s : State} {k : Block → Result}

theorem withRoundKey_of_no_keys (hkeys : s.ksv = false) : withRoundKey s k = .next (s.failed 11 s.draws) := by
  rw [withRoundKey, if_pos hkeys]
  exact raise_eq_failed .noKeySchedule s

theorem withRoundKey_out_of_range (hkeys : s.ksv = true) (hround : 10 < s.arg0.toNat) :
    withRoundKey s k = .next (s.failed 6 s.draws) := by
  have hout : ¬s.arg0Nat < 11 := Nat.not_lt.2 hround
  rw [withRoundKey, if_neg (by simp [hkeys]), dif_neg hout]
  exact raise_eq_failed .indexOutOfRange s

theorem withRoundKey_get (hkeys : s.ksv = true) {n : Fin 11} (hround : s.arg0.toNat = n.val) :
    withRoundKey s k = k (s.rk.get n) := by
  have hin : s.arg0Nat < 11 := hround.trans_lt n.isLt
  have hindex : (⟨s.arg0Nat, hin⟩ : Fin 11) = n := Fin.ext hround
  rw [withRoundKey, if_neg (by simp [hkeys]), dif_pos hin, hindex]

end RoundKey

theorem exec_ark (s : State) :
    exec .ark s = withRoundKey s fun k => succeed (s.setSt (addRoundKey s.st k)) := rfl

theorem exec_rkrd (d : BufNum) (s : State) :
    exec (.rkrd d) s = withRoundKey s fun k => succeed (s.bufWrite d .raw k.bytes) := rfl

theorem exec_ark_added {s : State} (hkeys : s.ksv = true) {n : Fin 11} (hround : s.arg0.toNat = n.val) :
    exec .ark s = .next ((s.setSt (addRoundKey s.st (s.rk.get n))).complete .none) :=
  (exec_ark s).trans (withRoundKey_get hkeys hround)

/-- Settles O53. -/
theorem arkXorsRoundKey : Obligations.ArkXorsRoundKey := by
  intro s
  rw [exec_ark]
  refine ⟨withRoundKey_of_no_keys, withRoundKey_out_of_range, fun n hkeys hround => ?_⟩
  exact ⟨_, withRoundKey_get hkeys hround, wroteSt_setSt s _ s.draws, get_addRoundKey s.st (s.rk.get n)⟩

/-- Settles O57. -/
theorem rkrdCopiesRoundKey : Obligations.RkrdCopiesRoundKey := by
  intro d s
  rw [exec_rkrd]
  refine ⟨withRoundKey_of_no_keys, withRoundKey_out_of_range, fun n hkeys hround => ?_⟩
  exact ⟨_, (s.rk.get n).bytes, withRoundKey_get hkeys hround, wroteBuffer_bufWrite s d .raw _ s.draws,
    (s.rk.get n).length_bytes, (s.rk.get n).getElem?_bytes⟩

/-! ## ISR, ISB and IMC (R131 to R133) -/

theorem exec_isr (s : State) : exec .isr s = .next ((s.setSt (invShiftRows s.st)).complete .none) := rfl

theorem exec_isb (s : State) : exec .isb s = .next ((s.setSt (invSubBytes s.st)).complete .none) := rfl

theorem exec_imc (s : State) : exec .imc s = .next ((s.setSt (invMixColumns s.st)).complete .none) := rfl

/-- Settles O54: each transform cell by cell, through the identities of the tables it reads. -/
theorem roundTransformsChangeSt : Obligations.RoundTransformsChangeSt := by
  intro s
  refine ⟨⟨_, exec_isr s, wroteSt_setSt s _ s.draws, ?_⟩, ⟨_, exec_isb s, wroteSt_setSt s _ s.draws, ?_⟩,
    ⟨_, exec_imc s, wroteSt_setSt s _ s.draws, ?_⟩⟩
  · exact get_invShiftRows_cell s.st
  · intro i
    exact (congrArg sbox (get_invSubBytes s.st i)).trans (sbox_invSbox _)
  · intro c
    simp only [State.complete_st, State.setSt_st, get_invMixColumns_cell]
    exact isInvMixColumn_invMixByte _ _ _ _

/-! ## DECBLK (R134) -/

theorem exec_decblk_of_no_keys {s : State} (hkeys : s.ksv = false) :
    exec .decblk s = .next (s.failed 11 s.draws) := by
  simp only [exec, execDecblk, if_pos hkeys]
  exact raise_eq_failed .noKeySchedule s

theorem exec_decblk_decrypted {s : State} (hkeys : s.ksv = true) :
    exec .decblk s = .next ((s.setSt (invCipher s.st s.rk)).complete .none) := by
  simp [exec, execDecblk, hkeys]

/-- Settles O55. -/
theorem decblkDecryptsState : Obligations.DecblkDecryptsState := fun s =>
  ⟨exec_decblk_of_no_keys, fun hkeys => ⟨_, exec_decblk_decrypted hkeys, wroteSt_setSt s _ s.draws, rfl⟩⟩

/-! ## The round commands, one after another (R125) -/

theorem runCommands_cons {m : Word} {i : Instr} {s t : State} (cs : List (Word × Instr))
    (h : exec i { s with arg0 := m } = .next t) : runCommands ((m, i) :: cs) s = runCommands cs t := by
  rw [runCommands, h]

/-- The state `s` after a command of the sequence that completed with `m` in ARG0 and `x` in ST. -/
def State.afterCommand (s : State) (m : Word) (x : Block) : State :=
  ({ s with arg0 := m }.setSt x).complete .none

/-- The ARG0 that names a round key. -/
def roundArg (n : Fin 11) : Word := BitVec.ofNat 32 n.val

theorem toNat_roundArg (n : Fin 11) : (roundArg n).toNat = n.val := by
  simp only [roundArg, BitVec.toNat_ofNat]
  omega

section Sequence

variable {s : State} {x : Block} {m : Word}

theorem runCommands_isr (m' : Word) (cs : List (Word × Instr)) :
    runCommands ((m', .isr) :: cs) (s.afterCommand m x) = runCommands cs (s.afterCommand m' (invShiftRows x)) :=
  runCommands_cons cs (exec_isr _)

theorem runCommands_isb (m' : Word) (cs : List (Word × Instr)) :
    runCommands ((m', .isb) :: cs) (s.afterCommand m x) = runCommands cs (s.afterCommand m' (invSubBytes x)) :=
  runCommands_cons cs (exec_isb _)

theorem runCommands_imc (m' : Word) (cs : List (Word × Instr)) :
    runCommands ((m', .imc) :: cs) (s.afterCommand m x) = runCommands cs (s.afterCommand m' (invMixColumns x)) :=
  runCommands_cons cs (exec_imc _)

theorem runCommands_ark (hkeys : s.ksv = true) (n : Fin 11) (cs : List (Word × Instr)) :
    runCommands ((roundArg n, .ark) :: cs) (s.afterCommand m x)
      = runCommands cs (s.afterCommand (roundArg n) (addRoundKey x (s.rk.get n))) :=
  runCommands_cons cs
    (exec_ark_added (s := { s.afterCommand m x with arg0 := roundArg n }) hkeys (toNat_roundArg n))

/-- The first command of the sequence starts from `s` itself. -/
theorem runCommands_first_ark (hkeys : s.ksv = true) (n : Fin 11) (cs : List (Word × Instr)) :
    runCommands ((roundArg n, .ark) :: cs) s
      = runCommands cs (s.afterCommand (roundArg n) (addRoundKey s.st (s.rk.get n))) :=
  runCommands_cons cs (exec_ark_added (s := { s with arg0 := roundArg n }) hkeys (toNat_roundArg n))

/-- The four commands of a round are `invRound`. -/
theorem runCommands_round (hkeys : s.ksv = true) (n : Fin 11) (cs : List (Word × Instr)) :
    runCommands (roundCommands (roundArg n) ++ cs) (s.afterCommand m x)
      = runCommands cs (s.afterCommand (roundArg n) (invRound x (s.rk.get n))) := by
  simp only [roundCommands, List.cons_append, List.nil_append]
  rw [runCommands_isr, runCommands_isb, runCommands_ark hkeys, runCommands_imc, invRound]

/-- The last three commands are `invFinalRound`. -/
theorem runCommands_finalRound (hkeys : s.ksv = true) (n : Fin 11) :
    runCommands [(roundArg n, .isr), (roundArg n, .isb), (roundArg n, .ark)] (s.afterCommand m x)
      = .next (s.afterCommand (roundArg n) (invFinalRound x (s.rk.get n))) := by
  rw [runCommands_isr, runCommands_isb, runCommands_ark hkeys, invFinalRound, runCommands]

end Sequence

/-- Any number of rounds is the fold of `invRound` over their round keys; which key was last is in ARG0. -/
theorem runCommands_rounds {s : State} (hkeys : s.ksv = true) (cs : List (Word × Instr)) (order : List (Fin 11))
    (m : Word) (x : Block) :
    ∃ m', runCommands (order.flatMap (fun n => roundCommands (roundArg n)) ++ cs) (s.afterCommand m x)
      = runCommands cs (s.afterCommand m' (order.foldl (fun t n => invRound t (s.rk.get n)) x)) := by
  induction order generalizing m x with
  | nil => exact ⟨m, rfl⟩
  | cons n order ih =>
    obtain ⟨m', hrest⟩ := ih (roundArg n) (invRound x (s.rk.get n))
    refine ⟨m', ?_⟩
    rw [List.flatMap_cons, List.append_assoc, runCommands_round hkeys, hrest, List.foldl_cons]

theorem cipherCommands_eq :
    cipherCommands = (roundArg 10, .ark) :: (roundOrder.flatMap (fun n => roundCommands (roundArg n))
      ++ [(roundArg 0, .isr), (roundArg 0, .isb), (roundArg 0, .ark)]) := rfl

/-- The sequence of R125 leaves InvCipher of ST. -/
theorem runCommands_cipherCommands {s : State} (hkeys : s.ksv = true) :
    runCommands cipherCommands s = .next (s.afterCommand (roundArg 0) (invCipher s.st s.rk)) := by
  obtain ⟨m, hrounds⟩ := runCommands_rounds hkeys [(roundArg 0, .isr), (roundArg 0, .isb), (roundArg 0, .ark)]
    roundOrder (roundArg 10) (addRoundKey s.st (s.rk.get 10))
  rw [cipherCommands_eq, runCommands_first_ark hkeys, hrounds, runCommands_finalRound hkeys, invCipher]

/-- Settles O56. -/
theorem decblkEqualsRoundCommands : Obligations.DecblkEqualsRoundCommands := fun _ hkeys =>
  ⟨_, _, exec_decblk_decrypted hkeys, runCommands_cipherCommands hkeys, rfl, rfl, fun _ => rfl, rfl, hkeys, rfl⟩

/-! ## The blocks of a decryption (R127) -/

theorem length_decryptEcb {c : List Byte} (h : c.length % 16 = 0) (w : KeyTable) :
    (decryptEcb c w).length = c.length := by
  simp only [decryptEcb, List.length_flatMap, Block.length_bytes, List.map_const', List.length_range,
    List.sum_replicate, smul_eq_mul]
  omega

/-- Pieces of one length, one after another: piece j starts at j times that length. -/
theorem getElem?_flatMap_range {k : Nat} {f : Nat → List Byte} (hf : ∀ j, (f j).length = k) {n j i : Nat}
    (hj : j < n) (hi : i < k) : ((List.range n).flatMap f)[k * j + i]? = (f j)[i]? := by
  induction n with
  | zero => exact absurd hj (Nat.not_lt_zero j)
  | succ n ih =>
    have hlen : ((List.range n).flatMap f).length = k * n := by simp [List.length_flatMap, hf, Nat.mul_comm]
    rw [List.range_succ, List.flatMap_append, List.flatMap_singleton]
    rcases Nat.lt_succ_iff_lt_or_eq.1 hj with hlt | rfl
    · have hin : k * j + i < k * n := by
        have hnext : k * j + k ≤ k * n := Nat.mul_le_mul_left k hlt
        omega
      rw [List.getElem?_append_left (hlen ▸ hin), ih hlt]
    · rw [List.getElem?_append_right (by omega), hlen, Nat.add_sub_cancel_left]

/-- Block j of the result is InvCipher of block j of the ciphertext. -/
theorem getElem?_decryptEcb {c : List Byte} {j : Nat} (h : 16 * j + 16 ≤ c.length) (w : KeyTable) (i : Fin 16) :
    (decryptEcb c w)[16 * j + i.val]? = some ((invCipher (blockAt c (16 * j)) w).get i) := by
  have hj : j < c.length / 16 := by omega
  rw [decryptEcb, getElem?_flatMap_range (fun _ => Block.length_bytes _) hj i.isLt, Block.getElem?_bytes]

/-! ## DECECB (R127) -/

section Dececb

variable {d a b : BufNum} {s t : State} {k ct : List Byte} {n m : Nat}

/-- The state DECECB leaves where key and ciphertext are read: RK holds the schedule and D the plaintext. -/
def State.decrypted (s : State) (d : BufNum) (m : Nat) (k ct : List Byte) : State :=
  ((s.keySet m (keyExpansion (blockAt k 0))).bufWrite d .raw (decryptEcb ct (keyExpansion (blockAt k 0)))).complete
    .none

theorem raw_operands (ha : (s.buf a).enc = .raw) (hb : (s.buf b).enc = .raw) :
    ¬((s.buf a).enc ≠ .raw ∨ (s.buf b).enc ≠ .raw) := by simp [ha, hb]

theorem exec_dececb_of_not_raw (henc : (s.buf a).enc ≠ .raw ∨ (s.buf b).enc ≠ .raw) :
    exec (.dececb d a b) s = .next (s.failed 3 s.draws) := by
  simp only [exec, execDececb, if_pos henc]
  exact raise_eq_failed .encodingMismatch s

theorem exec_dececb_of_blockLength (ha : (s.buf a).enc = .raw) (hb : (s.buf b).enc = .raw)
    (hblocks : (s.buf a).len % 16 ≠ 0) : exec (.dececb d a b) s = .next (s.failed 7 s.draws) := by
  simp only [exec, execDececb, if_neg (raw_operands ha hb), if_pos hblocks]
  exact raise_eq_failed .invalidBlockLength s

theorem exec_dececb_of_keyLength (ha : (s.buf a).enc = .raw) (hb : (s.buf b).enc = .raw)
    (hblocks : (s.buf a).len % 16 = 0) (hkey : (s.buf b).len ≠ 16) :
    exec (.dececb d a b) s = .next (s.failed 8 s.draws) := by
  simp only [exec, execDececb, if_neg (raw_operands ha hb), if_neg (not_not.2 hblocks), if_pos hkey]
  exact raise_eq_failed .invalidKeyLength s

theorem exec_dececb_decrypted (ha : (s.buf a).enc = .raw) (hb : (s.buf b).enc = .raw)
    (hblocks : (s.buf a).len % 16 = 0) (hkey : (s.buf b).len = 16) (hk : s.Reads b s.draws k n)
    (hct : s.Reads a n ct m) : exec (.dececb d a b) s = .next (s.decrypted d m k ct) := by
  simp only [exec, execDececb, if_neg (raw_operands ha hb), if_neg (not_not.2 hblocks), if_neg (not_not.2 hkey),
    hk.withSyms, hct.withSyms_withDraws]
  exact succeed_eq _

/-- A DECECB that completes with NONE passed every check. -/
theorem dececb_of_errcode_zero (hk : s.Reads b s.draws k n) (hct : s.Reads a n ct m)
    (h : exec (.dececb d a b) s = .next t) (ht : t.errcode = 0) :
    (s.buf a).len % 16 = 0 ∧ t = s.decrypted d m k ct := by
  by_cases henc : (s.buf a).enc ≠ .raw ∨ (s.buf b).enc ≠ .raw
  · rw [exec_dececb_of_not_raw henc] at h
    exact absurd h (next_failed_ne_of_errcode_zero ht (by decide))
  obtain ⟨ha, hb⟩ : (s.buf a).enc = .raw ∧ (s.buf b).enc = .raw := by simpa using henc
  by_cases hblocks : (s.buf a).len % 16 = 0
  · by_cases hkey : (s.buf b).len = 16
    · rw [exec_dececb_decrypted ha hb hblocks hkey hk hct] at h
      exact ⟨hblocks, (Host.Outcome.next.inj h).symm⟩
    · rw [exec_dececb_of_keyLength ha hb hblocks hkey] at h
      exact absurd h (next_failed_ne_of_errcode_zero ht (by decide))
  · rw [exec_dececb_of_blockLength ha hb hblocks] at h
    exact absurd h (next_failed_ne_of_errcode_zero ht (by decide))

theorem bufferWritten_decrypted (s : State) (d : BufNum) (m : Nat) (k ct : List Byte) :
    BufferWritten s (s.decrypted d m k ct) d .raw (decryptEcb ct (keyExpansion (blockAt k 0))) :=
  { bufferWritten_bufWrite (s.keySet m (keyExpansion (blockAt k 0))) d .raw _ with }

theorem succeeded_decrypted (s : State) (d : BufNum) (m : Nat) (k ct : List Byte) :
    Succeeded s (s.decrypted d m k ct) :=
  succeeded_complete { registersKept_keySet s m (keyExpansion (blockAt k 0)) with }

/-- Where the checks passed, D holds byte i of InvCipher of block j of the ciphertext. -/
theorem slot_decrypted (s : State) (d : BufNum) (m : Nat) (k : List Byte) (hct : ct.length % 16 = 0) {j i : Nat}
    (hj : 16 * j + 16 ≤ ct.length) (hi : i < 16) :
    (s.decrypted d m k ct).slot d (16 * j + i)
      = some ((invCipher (blockAt ct (16 * j)) (keyExpansion (blockAt k 0))).get ⟨i, hi⟩) := by
  have hin : 16 * j + i < (decryptEcb ct (keyExpansion (blockAt k 0))).length := by
    rw [length_decryptEcb hct]
    omega
  rw [(bufferWritten_decrypted s d m k ct).written _ hin]
  exact getElem?_decryptEcb hj _ ⟨i, hi⟩

end Dececb

/-- Settles O48. -/
theorem dececbDecryptsBlocks : Obligations.DececbDecryptsBlocks := by
  intro d a b s
  refine ⟨exec_dececb_of_not_raw, fun ha hb => ⟨exec_dececb_of_blockLength ha hb, exec_dececb_of_keyLength ha hb,
    fun hblocks hkey k ct n m hk hct => ?_⟩⟩
  have hlen : ct.length % 16 = 0 := hct.length_eq ▸ hblocks
  refine ⟨_, blockAt k 0, _, exec_dececb_decrypted ha hb hblocks hkey hk hct, succeeded_decrypted s d m k ct,
    bufferWritten_decrypted s d m k ct, rfl, rfl, rfl, rfl, getElem?_eq_get_blockAt_zero (hk.length_eq.trans hkey),
    isKeySchedule_keyExpansion _, length_decryptEcb hlen _, fun j i x hj hx => ?_⟩
  rw [getElem?_decryptEcb hj, blockAt_eq hx]
  rfl

/-- Settles O49: each block of the result is a function of its own block of the ciphertext. -/
theorem equalBlocksDecryptEqually : Obligations.EqualBlocksDecryptEqually := by
  intro d a b s t k ct n m j j' hk hct h ht hj hj' heq i hi
  obtain ⟨hblocks, rfl⟩ := dececb_of_errcode_zero hk hct h ht
  have hlen : ct.length % 16 = 0 := hct.length_eq ▸ hblocks
  rw [slot_decrypted s d m k hlen hj hi, slot_decrypted s d m k hlen hj' hi, blockAt_congr heq]

/-! ## The test vector of R137 -/

/-- A buffer whose slots below len hold `q` reads as `q` and draws nothing. -/
theorem reads_of_slots {s : State} {b : BufNum} {q : List Byte} (hlen : (s.buf b).len = q.length)
    (h : ∀ i, i < q.length → s.slot b i = q[i]?) (n : Nat) : s.Reads b n q n := by
  rw [State.Reads, Buffer.syms, hlen]
  refine readSeq_defined n fun i hi => ?_
  rw [Nat.zero_add]
  exact h i hi

theorem getElem?_zeros {n i : Nat} (h : i < n) : (zeros n)[i]? = some 0 := by simp [zeros, h]

/-- The ciphertext of R137. -/
def zeroKeyCiphertext : List Byte :=
  [0x66, 0xe9, 0x4b, 0xd4, 0xef, 0x8a, 0x2c, 0x3b, 0x88, 0x4c, 0xfa, 0x59, 0xca, 0x34, 0x2b, 0x2e]

theorem decryptEcb_zeroKeyCiphertext :
    decryptEcb zeroKeyCiphertext (keyExpansion (blockAt (zeros 16) 0)) = zeros 16 := by decide +kernel

/-- Settles O50: the operands read as the vector's, so the pure computation answers. -/
theorem zeroKeyKnownAnswer : Obligations.ZeroKeyKnownAnswer := by
  intro d a b s ha halen hct hb hblen hkey
  have hzeros : (zeros 16).length = 16 := List.length_replicate
  have hk : s.Reads b s.draws (zeros 16) s.draws :=
    reads_of_slots (hblen.trans hzeros.symm) (fun i hi => (hkey i hi).trans (getElem?_zeros hi).symm) _
  have hc : s.Reads a s.draws zeroKeyCiphertext s.draws := reads_of_slots (q := zeroKeyCiphertext) halen hct _
  have hwritten := bufferWritten_decrypted s d s.draws (zeros 16) zeroKeyCiphertext
  rw [decryptEcb_zeroKeyCiphertext] at hwritten
  refine ⟨_, exec_dececb_decrypted ha hb (by rw [halen]) hblen hk hc, rfl, hwritten.enc, hwritten.len,
    fun i hi => ?_⟩
  rw [hwritten.written i (hzeros ▸ hi), getElem?_zeros hi]

end Sys2Proof.Machine
end

section
/-! Proofs of the family 43_aes_tables: the inverse S-boxes and the affine transform (R148, R149), RCON (R150), the
identities of R156, and TBLRD on every table (R155). -/

namespace Sys2Proof.Machine

/-! ## The S-boxes (R148, R149) -/

/-- INV_SBOX inverts SBOX from the left; `sbox_invSbox` is the other side. -/
theorem invSbox_sbox : ∀ x : Byte, invSbox (sbox x) = x := by decide +kernel

/-- The inverse of the affine transform of R148. -/
def sboxAffineInv (y : Byte) : Byte :=
  y.rotateLeft 1 ^^^ y.rotateLeft 3 ^^^ y.rotateLeft 6 ^^^ 0x05

theorem sboxAffine_sboxAffineInv : ∀ y : Byte, sboxAffine (sboxAffineInv y) = y := by decide +kernel

/-- SBOX with its affine transform undone is the multiplicative inverse in GF(2^8). -/
theorem gfMul_sboxAffineInv_sbox : ∀ x : Byte, x ≠ 0 → gfMul x (sboxAffineInv (sbox x)) = 1 := by decide +kernel

/-! ## RCON (R150) -/

theorem rcon_eq_none {i : Nat} (h : i < 1 ∨ 10 < i) : rcon i = none := by
  rcases h with hlow | hhigh
  · exact if_pos (Nat.lt_one_iff.1 hlow)
  · have hout : rconTable.length ≤ i - 1 := Nat.le_sub_one_of_lt hhigh
    exact (if_neg (by omega)).trans (List.getElem?_eq_none hout)

/-- The stored entries are the powers of x that xtime gives. -/
theorem getElem?_rconTable : ∀ k : Fin 10, rconTable[k.val]? = some (xtimes k.val 0x01) := by decide

theorem rcon_eq_xtimes {i : Nat} (hlow : 1 ≤ i) (hhigh : i ≤ 10) : rcon i = some (xtimes (i - 1) 0x01) :=
  (if_neg (Nat.ne_of_gt hlow)).trans (getElem?_rconTable ⟨i - 1, by omega⟩)

/-- Settles O59. The inverse of x is SBOX[x] with the affine transform undone. -/
theorem tablesAreConsistent : Obligations.TablesAreConsistent := by
  refine ⟨fun x => ⟨invSbox_sbox x, sbox_invSbox x⟩,
    fun x => ⟨mul9_eq_gfMul x, mul11_eq_gfMul x, mul13_eq_gfMul x, mul14_eq_gfMul x⟩, fun i => ?_, by decide,
    fun x hx => ⟨_, gfMul_sboxAffineInv_sbox x hx, (sboxAffine_sboxAffineInv _).symm⟩⟩
  split_ifs with hi
  · obtain ⟨hlow, hhigh⟩ := hi
    exact rcon_eq_xtimes hlow hhigh
  · exact rcon_eq_none (by omega)

/-! ## The tables by number (R155) -/

theorem gridEntry_toNat (f : Byte → Byte) (x : Byte) : gridEntry f x.toNat = some (f x) := by
  rw [gridEntry, if_pos (Nat.le_of_lt_succ x.isLt), BitVec.ofNat_toNat, BitVec.setWidth_eq]

theorem gridEntry_eq_none (f : Byte → Byte) {i : Nat} (h : 255 < i) : gridEntry f i = none :=
  if_neg (Nat.not_le.2 h)

theorem tableEntry_eq_none_of_table {t : Nat} (h : 6 < t) (i : Nat) : tableEntry t i = none := by
  obtain ⟨k, rfl⟩ := Nat.exists_eq_add_of_le' h
  rfl

theorem tableEntry_eq_none_of_index {t i : Nat} (ht : t ≠ 2) (hi : 255 < i) : tableEntry t i = none := by
  match t with
  | 0 | 1 | 3 | 4 | 5 | 6 => exact gridEntry_eq_none _ hi
  | 2 => contradiction
  | _ + 7 => rfl

/-- What R147 to R154 make of byte `x` in the table of number `t`, which is not RCON: a substitution or a product. -/
def byteOfTable (t : Nat) (x : Byte) : Byte :=
  match t with
  | 0 => sbox x
  | 1 => invSbox x
  | 3 => gfMul 9 x
  | 4 => gfMul 11 x
  | 5 => gfMul 13 x
  | _ => gfMul 14 x

theorem tableEntry_eq_byteOfTable {t : Nat} (hlast : t ≤ 6) (hrcon : t ≠ 2) (x : Byte) :
    tableEntry t x.toNat = some (byteOfTable t x) := by
  match t with
  | 0 | 1 => exact gridEntry_toNat _ x
  | 2 => contradiction
  | 3 => exact (gridEntry_toNat mul9 x).trans (congrArg some (mul9_eq_gfMul x))
  | 4 => exact (gridEntry_toNat mul11 x).trans (congrArg some (mul11_eq_gfMul x))
  | 5 => exact (gridEntry_toNat mul13 x).trans (congrArg some (mul13_eq_gfMul x))
  | 6 => exact (gridEntry_toNat mul14 x).trans (congrArg some (mul14_eq_gfMul x))
  | _ + 7 => omega

/-! ## TBLRD (R155) -/

section Tblrd

variable {s : State}

theorem exec_tblrd_of_no_entry (h : tableEntry s.arg1Nat s.arg0Nat = none) :
    exec .tblrd s = .next (s.failed 6 s.draws) := by
  simp only [exec, execTblrd, h]
  exact raise_eq_failed .indexOutOfRange s

theorem exec_tblrd_read {v : Byte} (h : tableEntry s.arg1Nat s.arg0Nat = some v) :
    ∃ u, exec .tblrd s = .next u ∧ WroteResult s u (BitVec.ofNat 32 v.toNat) s.draws := by
  refine ⟨_, ?_, wroteResult_complete s _ s.draws⟩
  simp only [exec, execTblrd, h, BitVec.ofNat_toNat]
  rfl

end Tblrd

/-- Settles O58. -/
theorem tblrdReadsTables : Obligations.TblrdReadsTables := by
  intro s
  refine ⟨fun hbad => exec_tblrd_of_no_entry ?_, fun hlast hrcon x hx => ?_, fun hrcon hlow hhigh => ?_⟩
  · rcases hbad with htable | ⟨hrcon, hindex⟩ | ⟨hgrid, hindex⟩
    · exact tableEntry_eq_none_of_table htable _
    · rw [State.arg1Nat, hrcon]
      exact rcon_eq_none hindex
    · exact tableEntry_eq_none_of_index hgrid hindex
  · have hentry : tableEntry s.arg1Nat s.arg0Nat = some (byteOfTable s.arg1.toNat x) := by
      rw [State.arg0Nat, hx]
      exact tableEntry_eq_byteOfTable hlast hrcon x
    obtain ⟨u, hexec, hwrote⟩ := exec_tblrd_read hentry
    exact ⟨u, _, hexec, hwrote, rfl⟩
  · have hentry : tableEntry s.arg1Nat s.arg0Nat = some (xtimes (s.arg0.toNat - 1) 0x01) := by
      rw [State.arg1Nat, hrcon]
      exact rcon_eq_xtimes hlow hhigh
    exact exec_tblrd_read hentry

end Sys2Proof.Machine
end

section
/-! Proofs of the family 44_system: the ENGINE's turn and the CMD register (R158 to R160), what every completion leaves in
STATUS (R180, R182, R185), and NOP (R163). -/

namespace Sys2Proof.Machine

/-! ## NOP (R163) -/

theorem exec_nop (s : State) : exec .nop s = .next (s.complete .none) := rfl

/-- Settles O34. -/
theorem nopOnlyCompletes : Obligations.NopOnlyCompletes := exec_nop

/-! ## The ENGINE's turn (R158, R160, R194) -/

theorem engineTurn_of_idle {s : State} (hidle : s.busy = false) : engineTurn s = .next s := by
  simp [engineTurn, hidle]

theorem engineTurn_of_decode {s : State} {i : Instr} (hbusy : s.busy = true) (hdecode : decode s.cmd = .ok i) :
    engineTurn s = exec i s := by
  simp [engineTurn, engineStep, hbusy, hdecode]

theorem State.runOver_iff (s : State) : s.runOver = true ↔ s.schedule = [] ∧ s.busy = false := by
  simp [State.runOver]

/-- R169, R194: the block holds all state from the end of the run on. -/
theorem step_of_runOver {s : State} (h : s.runOver = true) : step s = .next s := by
  obtain ⟨hempty, hidle⟩ := s.runOver_iff.1 h
  have hnext : s.engineNext := .inl (List.head?_eq_none_iff.2 hempty)
  rw [step_of_engineNext hnext, State.advance_of_no_event hempty, engineTurn_of_idle hidle]

/-- Settles O6: the step is the ENGINE's turn on the state whose event is taken off. -/
theorem stepRunsDecodedCommand : Obligations.StepRunsDecodedCommand := by
  refine ⟨fun s i hbusy hnext hdecode => ?_, fun s hidle hnext => ?_, fun s => ⟨s.runOver_iff, step_of_runOver⟩⟩
  · exact (step_of_engineNext hnext).trans (engineTurn_of_decode (s := s.advance) hbusy hdecode)
  · exact (step_of_engineNext hnext).trans (engineTurn_of_idle (s := s.advance) hidle)

/-! ## A write of CMD (R159) -/

theorem regAt_cmd {o : BitVec 8} (h : o.extractLsb' 2 6 = 0x03#6) : regAt o = .cmd := by simp [regAt, h]

/-- Settles O7. -/
theorem cmdWriteAcceptsAnyWord : Obligations.CmdWriteAcceptsAnyWord := by
  refine fun s o v h ho => ⟨fun hidle => ?_, fun hbusy => ?_⟩
  · exact step_of_idleWrite h hidle (regAt_cmd ho) nofun nofun
  · have hindex : (o.extractLsb' 2 6).toNat = 0x03 := congrArg BitVec.toNat ho
    rw [step_of_writeNext h, hostWrite_overrun (s := s.advance) hbusy (.inr hindex.ge) (by omega)]
    rfl

/-! ## Every command completes (R160) -/

/-- No fault is left where the operands can be read: it needs UNDEF_READ to be `fault` and an undefined slot (R57). -/
theorem CommandAnswer.exists_next {i : Instr} {s : State} {answer : Result} (h : CommandAnswer i s answer)
    (hreadable : Config.undefRead = .draw ∨ ∀ b, s.allDefined b) : ∃ t, answer = .next t := by
  cases h with
  | next t => exact ⟨t, rfl⟩
  | fault b k hfault _ hk hundefined =>
    rcases hreadable with hdraw | hdefined
    · rw [hdraw] at hfault
      contradiction
    · exact absurd hundefined (hdefined b k hk)

/-- Settles O22: a command completes or faults, and here it cannot fault. -/
theorem everyCommandCompletes : Obligations.EveryCommandCompletes := fun i s => (exec_answer i s).exists_next

/-! ## What a completion leaves in STATUS (R180, R182, R185) -/

/-- R180: the codes are 0 to 12. -/
theorem Code.num_le (c : Code) : c.num.toNat ≤ 12 := by
  cases c <;> decide

/-- Every effect of a command is a completion of a state with the registers no command writes. -/
theorem CommandEffect.completion {i : Instr} {s t : State} (h : CommandEffect i s t) :
    ∃ u c, t = u.complete c ∧ RegistersKept s u := by
  cases h with
  | completed c n => exact ⟨_, c, rfl, ⟨rfl, rfl, rfl, rfl, rfl, rfl, rfl, rfl, rfl, rfl⟩⟩
  | _ => exact ⟨_, .none, rfl, ⟨rfl, rfl, rfl, rfl, rfl, rfl, rfl, rfl, rfl, rfl⟩⟩

theorem registersKept_complete {s u : State} (h : RegistersKept s u) (c : Code) : RegistersKept s (u.complete c) :=
  { h with }

/-- Settles O25: what `State.complete` leaves; IRQ is DONE AND IE (R43), and IE is kept. -/
theorem completionsSetStatus : Obligations.CompletionsSetStatus := by
  intro i s t h
  obtain ⟨u, c, rfl, hkept⟩ := (exec_effect h).completion
  have hirq : (u.complete c).irq = s.ie := by simp [State.irq, hkept.ie]
  exact ⟨rfl, rfl, c.num_le, hirq, registersKept_complete hkept c⟩

/-! ## What one step does to STATUS (R159, R180) -/

/-- What one step can do to BUSY, DONE and ERRCODE: leave them, but for a DONE the HOST clears (R27); accept a command
(R159); or leave the block idle with a code of R180, as a completion and a reset do. -/
inductive StatusStep (s t : State) : Prop
  | kept (hbusy : t.busy = s.busy) (hdone : s.done = false → t.done = false) (herr : t.errcode = s.errcode)
  | accepted (hdone : t.done = false) (herr : t.errcode = 0)
  | idle (c : Code) (hbusy : t.busy = false) (herr : t.errcode = c.num)

/-- A step that leaves the three fields as they are. -/
theorem StatusStep.of_eq {s t : State} (hbusy : t.busy = s.busy) (hdone : t.done = s.done)
    (herr : t.errcode = s.errcode) : StatusStep s t :=
  .kept hbusy hdone.trans herr

theorem statusStep_resetBlock (s u : State) : StatusStep s u.resetBlock := .idle .none rfl rfl

theorem statusStep_complete (s u : State) (c : Code) : StatusStep s (u.complete c) := .idle c rfl rfl

theorem statusStep_writeCtrl (v : Word) (s : State) : StatusStep s (writeCtrl v s) := by
  unfold writeCtrl
  split_ifs
  · exact statusStep_resetBlock s s
  · exact .of_eq rfl rfl rfl

theorem statusStep_writeStatus (v : Word) (s : State) : StatusStep s (s.writeStatus v) :=
  .kept rfl (fun hdone => by simp [State.writeStatus, hdone]) rfl

theorem statusStep_writeBdata (v : Word) (s : State) : StatusStep s (writeBdata v s) := by
  simp only [writeBdata]
  split_ifs
  · exact .of_eq rfl rfl rfl
  · exact .of_eq rfl rfl rfl

theorem statusStep_writeBlen (v : Word) (s : State) : StatusStep s (writeBlen v s) := by
  simp only [writeBlen]
  split_ifs
  · exact .of_eq rfl rfl rfl
  · exact .of_eq rfl rfl rfl

theorem statusStep_writeBenc (v : Word) (s : State) : StatusStep s (writeBenc v s) := by
  unfold writeBenc
  split
  all_goals exact .of_eq rfl rfl rfl

theorem statusStep_writeIdle (r : Reg) (v : Word) (s : State) : StatusStep s (writeIdle r v s) := by
  cases r with
  | cmd => exact .accepted rfl rfl
  | bdata => exact statusStep_writeBdata v s
  | blen => exact statusStep_writeBlen v s
  | benc => exact statusStep_writeBenc v s
  | _ => exact .of_eq rfl rfl rfl

theorem statusStep_hostWrite (o : BitVec 8) (v : Word) (s : State) : StatusStep s (hostWrite o v s) := by
  unfold hostWrite
  split
  · exact statusStep_writeCtrl v s
  · exact statusStep_writeStatus v s
  · exact .of_eq rfl rfl rfl
  · split_ifs
    · exact .of_eq rfl rfl rfl
    · exact statusStep_writeIdle _ v s

theorem statusStep_readBdata {s t : State} (h : readBdata s = .next t) : StatusStep s t := by
  unfold readBdata at h
  split_ifs at h
  · obtain rfl := Host.Outcome.next.inj h
    exact .of_eq rfl rfl rfl
  · split at h
    · contradiction
    · obtain rfl := Host.Outcome.next.inj h
      exact .of_eq rfl rfl rfl

theorem statusStep_hostRead {o : BitVec 8} {s t : State} (h : hostRead o s = .next t) : StatusStep s t := by
  rcases hostRead_cases h with rfl | ⟨v, rfl⟩ | hport
  · exact .of_eq rfl rfl rfl
  · exact .of_eq rfl rfl rfl
  · exact statusStep_readBdata hport

theorem statusStep_engineTurn {s t : State} (h : engineTurn s = .next t) : StatusStep s t := by
  rcases engineTurn_cases h with ⟨-, rfl⟩ | ⟨-, rfl⟩ | ⟨i, -, -, heffect⟩
  · exact .of_eq rfl rfl rfl
  · exact statusStep_complete s s .illegalCommand
  · obtain ⟨u, c, rfl, -⟩ := heffect.completion
    exact statusStep_complete s u c

/-- Taking an event off the schedule leaves STATUS. -/
theorem StatusStep.of_advance {s t : State} (h : StatusStep s.advance t) : StatusStep s t := by
  cases h with
  | kept hbusy hdone herr => exact .kept hbusy hdone herr
  | accepted hdone herr => exact .accepted hdone herr
  | idle c hbusy herr => exact .idle c hbusy herr

theorem step_statusStep {s t : State} (h : step s = .next t) : StatusStep s t := by
  apply StatusStep.of_advance
  rcases s.turn_cases with hs | ⟨o, hs⟩ | ⟨o, v, hs⟩ | hs
  · exact statusStep_engineTurn (step_of_engineNext hs ▸ h)
  · exact statusStep_hostRead (step_of_readNext hs ▸ h)
  · obtain rfl := Host.Outcome.next.inj (step_of_writeNext hs ▸ h)
    exact statusStep_hostWrite o v s.advance
  · obtain rfl := Host.Outcome.next.inj (step_of_resetNext hs ▸ h)
    exact statusStep_resetBlock s.advance s.advance

theorem StatusStep.statusLegal {s t : State} (h : StatusStep s t) (hs : StatusLegal s) : StatusLegal t := by
  obtain ⟨hcode, hprogress⟩ := hs
  cases h with
  | kept hbusy hdone herr =>
    refine ⟨herr ▸ hcode, fun hb => ?_⟩
    obtain ⟨hdone', herr'⟩ := hprogress (hbusy ▸ hb)
    exact ⟨hdone hdone', herr.trans herr'⟩
  | accepted hdone herr => exact ⟨by simp [herr], fun _ => ⟨hdone, herr⟩⟩
  | idle c hbusy herr => exact ⟨herr ▸ c.num_le, fun hb => absurd (hbusy.symm.trans hb) nofun⟩

/-- Settles O32. -/
theorem stepKeepsStatusLegal : Obligations.StepKeepsStatusLegal := fun _ _ hs h => (step_statusStep h).statusLegal hs

end Sys2Proof.Machine
end

section
/-! Proofs of the family 60_exceptions: what a completion with an error code writes (R161, R182). -/

namespace Sys2Proof.Machine

/-- R182: every effect that writes more than STATUS completes with NONE. -/
theorem CommandEffect.eq_failed {i : Instr} {s t : State} (h : CommandEffect i s t) (hcode : t.errcode ≠ 0) :
    t = s.failed t.errcode t.draws := by
  cases h with
  | completed c n => rfl
  | buffer | st | result | keys | keysAndBuffer => exact absurd rfl hcode

/-- R182 for the ENGINE's turn: the word in CMD is illegal (R183), or a command that fails. -/
theorem engineTurn_eq_failed {s t : State} (hbusy : s.busy = true) (h : engineTurn s = .next t)
    (hcode : t.errcode ≠ 0) : t = s.failed t.errcode t.draws := by
  rcases engineTurn_cases h with ⟨hidle, -⟩ | ⟨-, rfl⟩ | ⟨i, -, -, heffect⟩
  · exact absurd (hidle.symm.trans hbusy) nofun
  · rfl
  · exact heffect.eq_failed hcode

/-- Settles O26: for a command by `CommandEffect.eq_failed`, for an ENGINE step by `engineTurn_eq_failed` once its event
is off the schedule. -/
theorem failingCommandsWriteOnlyStatus : Obligations.FailingCommandsWriteOnlyStatus :=
  ⟨fun _ _ _ h hcode => (exec_effect h).eq_failed hcode,
    fun s _ hbusy hturn h hcode => engineTurn_eq_failed (s := s.advance) hbusy (step_of_engineNext hturn ▸ h) hcode⟩

end Sys2Proof.Machine
end
